-- ==== Sys2Proof/Word.lean ====
section
/-! DEFINITION. The values of the hardware (R10): words, bytes, the 64-bit block as two halves, and the key schedule.
Addition `+` of two words is the spec's `+32` (R11: modulo 2^32, the carry out of bit 31 discarded) and `^^^` its `xor`. -/

namespace Sys2Proof

/-- A word: 32 bits, unsigned (R10). -/
abbrev Word := BitVec 32

/-- A byte: 8 bits (R10). -/
abbrev Byte := BitVec 8

/-- A block: a 64-bit value as its left and right halves (R17); the left half is bits 63:32 (R43). -/
structure Block where
  l : Word
  r : Word
  deriving DecidableEq, Repr

/-- A key schedule: the Round-Key Table and the four Substitution Tables (R18, R19). -/
structure KeySchedule where
  /-- `P[0..17]`. -/
  p : Vector Word 18
  /-- `S[0..3][0..255]`. -/
  s : Vector (Vector Word 256) 4
  deriving DecidableEq, Repr

end Sys2Proof
end

