-- ==== Sys2Proof/Syntax.lean ====
section
/-! DEFINITION. The commands (R60): one constructor per row of spec/opcode_table.json. -/

namespace Sys2Proof

/-- The five commands of the hardware (R60, R63). `n` is the unsigned byte count that a command word carries in its field
`N`, zero-extended (R62); `ENCB` and `DECB` carry none. -/
inductive Instr where
  /-- `DERIVE n`: derive a key schedule from `KEYBUF[0..n-1]` (R80). -/
  | derive (n : Nat)
  /-- `ENCB`: encrypt the block in `IBUF[0..7]` into `OBUF[0..7]` (R100). -/
  | encb
  /-- `DECB`: decrypt the block in `IBUF[0..7]` into `OBUF[0..7]` (R101). -/
  | decb
  /-- `ECBE n`: encrypt `IBUF[0..n-1]` into `OBUF[0..n-1]` block by block (R112). -/
  | ecbe (n : Nat)
  /-- `ECBD n`: decrypt `IBUF[0..n-1]` into `OBUF[0..n-1]` block by block (R113). -/
  | ecbd (n : Nat)
  deriving DecidableEq, Repr, Inhabited

end Sys2Proof
end

