-- ==== Sys2Proof/WellFormed.lean ====
section
/-! DEFINITION. Which commands a command word can carry. -/

namespace Sys2Proof

/-- The byte count of a command is the 16-bit field `N` (R61, R62): a value from 0 to 65535. A count above the buffer's
size is still well formed: it decodes, and is refused with RANGE when it is issued (R63, R136). -/
def Instr.wellFormed : Instr → Bool
  | .derive n => n < 65536
  | .encb => true
  | .decb => true
  | .ecbe n => n < 65536
  | .ecbd n => n < 65536

end Sys2Proof
end

