-- ==== Sys2Proof/Decode.lean ====
section
/-! DEFINITION. The decoder of command words, total on all 2^32 of them (R64), and after it the encoder, both written from
the format and the opcode map of R61 and R63. -/

namespace Sys2Proof

/-- Why a word is no command (R64). The machine answers each the same way, with the protocol fault ILLEGAL. -/
inductive DecodeError where
  /-- `RSV`, bits 23:16, is not 0x00. -/
  | reservedField
  /-- `OPC`, bits 31:24, is 0x00 or 0x06 to 0xFF. -/
  | undefinedOpcode
  /-- `OPC` is 0x02 or 0x03 and `N` is not 0. -/
  | countNotZero
  deriving DecidableEq, Repr

/-- `OPC`, bits 31:24 of a command word (R61). -/
def opcField (w : Word) : Byte := w.extractLsb' 24 8

/-- `RSV`, bits 23:16 of a command word (R61). -/
def rsvField (w : Word) : Byte := w.extractLsb' 16 8

/-- `N`, bits 15:0 of a command word (R61). -/
def nField (w : Word) : BitVec 16 := w.extractLsb' 0 16

/-- The command a word stands for, or why it stands for none (R63, R64). The count is taken as it stands: not scaled, not
shifted, never signed (R62). -/
def decode (w : Word) : Except DecodeError Instr :=
  if rsvField w ≠ 0x00 then .error .reservedField
  else if opcField w = 0x01 then .ok (.derive (nField w).toNat)
  else if opcField w = 0x02 then if nField w = 0 then .ok .encb else .error .countNotZero
  else if opcField w = 0x03 then if nField w = 0 then .ok .decb else .error .countNotZero
  else if opcField w = 0x04 then .ok (.ecbe (nField w).toNat)
  else if opcField w = 0x05 then .ok (.ecbd (nField w).toNat)
  else .error .undefinedOpcode

/-- A word of format C from its opcode and its count; `RSV` is 0x00 (R61). -/
def commandWord (opc : Byte) (n : Nat) : Word := opc ++ (0x00 : Byte) ++ BitVec.ofNat 16 n

/-- The word of a well-formed command (R63). -/
def encode : Instr → Word
  | .derive n => commandWord 0x01 n
  | .encb => commandWord 0x02 0
  | .decb => commandWord 0x03 0
  | .ecbe n => commandWord 0x04 n
  | .ecbd n => commandWord 0x05 n

/-- The `match` column of R63 for a command's row. -/
def matchOf : Instr → Word
  | .derive _ => 0x01000000
  | .encb => 0x02000000
  | .decb => 0x03000000
  | .ecbe _ => 0x04000000
  | .ecbd _ => 0x05000000

/-- The `mask` column of R63 for a command's row. -/
def maskOf : Instr → Word
  | .derive _ => 0xFFFF0000
  | .encb => 0xFFFFFFFF
  | .decb => 0xFFFFFFFF
  | .ecbe _ => 0xFFFF0000
  | .ecbd _ => 0xFFFF0000

/-- The command in a table word: `nbits` bits `w`, bit 0 the least significant bit of the one 32-bit command word. A command
is always exactly one word (R65), so more than 32 bits hold no command, and fewer leave the bits above them 0. -/
def decodeTableWord (nbits w : Nat) : Option Instr :=
  if 32 < nbits then none
  else match decode (BitVec.ofNat 32 (w % 2 ^ nbits)) with
    | .ok i => some i
    | .error _ => none

end Sys2Proof
end

