-- ==== Sys2Proof/Machine/State.lean ====
section
/-! DEFINITION. The state of hs16 CORE (R16) as plain data, what the two agents can do next (R9, R50, R130), and the state
after reset (R34). -/

namespace Sys2Proof.Machine

/-! ## The host port's vocabulary -/

/-- The four registers of the host port (R25, R27, R29, R30). -/
inductive Reg where
  | cmd | status | result | fault
  deriving DecidableEq, Repr

/-- The three byte buffers (R22, R23, R24). -/
inductive Buffer where
  | keybuf | ibuf | obuf
  deriving DecidableEq, Repr

/-- The five sticky bits of FAULT (R30, R152). -/
inductive FaultBit where
  | illegal | busyviol | nosched | range | access
  deriving DecidableEq, Repr

/-- How wide a host access is (R45): a register moves as a word, a buffer element as a byte. -/
inductive Width where
  | word | byte
  deriving DecidableEq, Repr

/-- One host action, indivisible (R130). -/
inductive HostAction where
  /-- `RegRead` (R131). -/
  | regRead (r : Reg)
  /-- `RegWrite` (R132); of `CMD`, the issue of a command (R136). -/
  | regWrite (r : Reg) (w : Word)
  /-- `ByteRead` (R134). -/
  | byteRead (b : Buffer) (k : Nat)
  /-- `ByteWrite` (R133). -/
  | byteWrite (b : Buffer) (k : Nat) (v : Byte)
  /-- A read of an undefined address, or of the wrong width (R135). -/
  | strayRead (width : Width)
  /-- A write to an undefined address, or of the wrong width (R135). -/
  | strayWrite (width : Width)
  /-- `Reset` (R170). -/
  | reset
  deriving DecidableEq, Repr

/-- A host access by its flat byte address in the map of R48. -/
inductive BusAccess where
  | readWord (a : Nat)
  | writeWord (a : Nat) (w : Word)
  | readByte (a : Nat)
  | writeByte (a : Nat) (v : Byte)
  deriving DecidableEq, Repr

/-- What takes the next transition (R9, R50): every execution is one total order of host accesses and completion steps. -/
inductive Event where
  /-- The host performs an action. -/
  | host (a : HostAction)
  /-- The host performs an access that it names by its flat address (R48). -/
  | bus (a : BusAccess)
  /-- The core takes its step `Complete` if it is enabled (R137); if `BUSY` = 0 the core has no step. -/
  | complete
  /-- Power is applied: a reset at which the buffers hold `any` as well (R170; DEDUCED, safe, log entry 7). -/
  | powerOn
  deriving DecidableEq, Repr

/-- What a host read returns: a register value or a buffer byte (R130). -/
inductive Reply where
  | word (w : Word)
  | byte (b : Byte)
  deriving DecidableEq, Repr

/-! ## The state -/

/-- A byte buffer as the bytes something has written: cells in strictly rising order of index. An index that is not listed
holds `any` (R31). -/
abbrev Memory := List Host.Cell

/-- The canonical form of a buffer: indices strictly rising. No entry can equal what an unlisted index holds, since that is
no value at all (`Memory.unlisted`), so this is the whole of the form. -/
abbrev Memory.wf (m : Memory) : Prop := m.Pairwise (fun a b => a.1 < b.1)

/-- The complete architectural state (R16), and three fields of the model's own: `draws`, `events`, `reply`. -/
structure State where
  /-- `L`, the left half register (R17). -/
  l : Word
  /-- `R`, the right half register (R17). -/
  r : Word
  /-- `P` and `S`, the one key schedule the hardware holds (R18, R19, R20). -/
  sched : KeySchedule
  /-- `SV`, schedule valid (R21). -/
  sv : Bool
  /-- `KEYBUF` (R22). -/
  keybuf : Memory
  /-- `IBUF` (R23). -/
  ibuf : Memory
  /-- `OBUF` (R24). -/
  obuf : Memory
  /-- `BUSY`, a command is in flight (R27). -/
  busy : Bool
  /-- `CUR`, the command in flight, meaningful while `BUSY` = 1 (R26). -/
  cur : Instr
  /-- `RESULT.CODE`, the result code of the last completed command (R29). -/
  result : Byte
  /-- `FAULT[4:0]`, the sticky protocol faults (R30). -/
  faultBits : BitVec 5
  /-- The model's own: how many unspecified values have been drawn so far. The next draw is a free value applied to it
  (DESIGN CHOICE, safe, log entry 3). -/
  draws : Nat
  /-- The model's own: what the host and the core do next, in order (R50). Any list is allowed
  (DESIGN CHOICE, safe, log entry 1). -/
  events : List Event
  /-- The model's own: what the host's last action returned, `none` where it returns nothing (R130;
  DESIGN CHOICE, safe, log entry 11). -/
  reply : Option Reply
  deriving DecidableEq, Repr

/-- Why the machine stops. The protocol faults of R152 are not here: they set a bit of `State.faultBits` and the machine goes
on (R157), and `LengthError` is a result code (R150). -/
inductive Fault where
  /-- Raised by the completion step of DERIVE, ECBE or ECBD whose count reaches past the end of its buffer, where no byte
  exists. Such a command is refused with RANGE when it is issued (R136), so no state that a run reaches raises this. Safe
  (DESIGN CHOICE, log entry 10). -/
  | noSuchByte
  deriving DecidableEq, Repr

/-- Why the model gives an instruction no meaning. -/
inductive Refusal where
  /-- Raised by `exec` for an instruction the model has not reached. No arm raises it. Safe. -/
  | notModelled (mnemonic : String)
  deriving DecidableEq, Repr

/-- The state right after power-on reset (R34, R170): idle, no valid schedule, `RESULT` = `OK`, `FAULT` = 0, nothing written
in any buffer. R34 gives no value for `L`, `R`, `P`, `S` and `CUR`: the zeros and `DERIVE 0` here are the model's names for
them (DESIGN CHOICE, unsafe, log entry 4), and nothing reads them before a command has written them. -/
def State.reset : State where
  l := 0
  r := 0
  sched := { p := Vector.replicate 18 0, s := Vector.replicate 4 (Vector.replicate 256 0) }
  sv := false
  keybuf := []
  ibuf := []
  obuf := []
  busy := false
  cur := .derive 0
  result := 0x00
  faultBits := 0
  draws := 0
  events := []
  reply := none

end Sys2Proof.Machine
end

