-- ==== Sys2Proof/Machine/Flags.lean ====
section
/-! DEFINITION. The status bits of the hardware and the words the host reads them in. There are no arithmetic flags: the carry
of `+32` is recorded nowhere (R35, R98). -/

namespace Sys2Proof.Machine

/-- `RESULT.CODE` of a command that succeeded (R29). -/
def codeOk : Byte := 0x00

/-- `RESULT.CODE` of HS16's one error, `LengthError` (R29, R150). -/
def codeLengthError : Byte := 0x01

/-- The bit of FAULT a protocol fault sets (R30). -/
def FaultBit.mask : FaultBit → BitVec 5
  | .illegal => 0b00001
  | .busyviol => 0b00010
  | .nosched => 0b00100
  | .range => 0b01000
  | .access => 0b10000

/-- The STATUS register: bit 0 `BUSY`, bit 1 `SV`, the rest read as 0 (R27). -/
def State.statusWord (s : State) : Word := (BitVec.ofBool s.sv ++ BitVec.ofBool s.busy).zeroExtend 32

/-- The RESULT register: bits 7:0 `CODE`, the rest read as 0 (R29). -/
def State.resultWord (s : State) : Word := s.result.zeroExtend 32

/-- The FAULT register: bits 4:0 the sticky faults, the rest read as 0 (R30). -/
def State.faultWord (s : State) : Word := s.faultBits.zeroExtend 32

end Sys2Proof.Machine
end

