-- ==== Sys2Proof/Machine/Ops.lean ====
section
/-! DEFINITION. The named operations over the registers and the buffers, the free values, and what stands in this hardware for
taking an exception: raising a protocol fault (R152), reporting `LengthError` (R150, R151), and reset (R170, R171). -/

namespace Sys2Proof.Machine

/-! ## Writing one piece of state -/

/-- `(L, R) <- b` (R12). -/
def State.setHalves (s : State) (b : Block) : State := { s with l := b.l, r := b.r }

/-- Replace the key schedule `(P, S)`. -/
def State.setSched (s : State) (k : KeySchedule) : State := { s with sched := k }

/-- `SV <- v`. -/
def State.setSv (s : State) (v : Bool) : State := { s with sv := v }

/-- Replace the contents of `KEYBUF`. -/
def State.setKeybuf (s : State) (m : Memory) : State := { s with keybuf := m }

/-- Replace the contents of `IBUF`. -/
def State.setIbuf (s : State) (m : Memory) : State := { s with ibuf := m }

/-- Replace the contents of `OBUF`. -/
def State.setObuf (s : State) (m : Memory) : State := { s with obuf := m }

/-- `BUSY <- v`. -/
def State.setBusy (s : State) (v : Bool) : State := { s with busy := v }

/-- `CUR <- i`. -/
def State.setCur (s : State) (i : Instr) : State := { s with cur := i }

/-- `RESULT.CODE <- c`. -/
def State.setResult (s : State) (c : Byte) : State := { s with result := c }

/-- Replace `FAULT[4:0]`. -/
def State.setFaultBits (s : State) (f : BitVec 5) : State := { s with faultBits := f }

/-- Count `k` more draws of unspecified values. -/
def State.advance (s : State) (k : Nat) : State := { s with draws := s.draws + k }

/-- Replace what is to happen next. -/
def State.setEvents (s : State) (es : List Event) : State := { s with events := es }

/-- Record what a host action returns. -/
def State.setReply (s : State) (v : Option Reply) : State := { s with reply := v }

/-! ## The buffers -/

/-- What an index that is not listed holds: no value, the spec's `any` (R31; DESIGN CHOICE, safe, log entry 3). -/
def Memory.unlisted : Option Byte := none

/-- The byte something has written at an index, or that it holds `any`. -/
def Memory.lookup (m : Memory) (a : Nat) : Option Byte :=
  match m with
  | [] => Memory.unlisted
  | (k, v) :: rest => if a = k then some v else Memory.lookup rest a

/-- `space[a] <- b` (R12), keeping the canonical form. -/
def Memory.write (m : Memory) (a : Nat) (b : Byte) : Memory :=
  match m with
  | [] => [(a, b)]
  | (k, v) :: rest =>
    if a < k then (a, b) :: (k, v) :: rest
    else if a = k then (a, b) :: rest
    else (k, v) :: Memory.write rest a b

/-- The bytes at indices below `n` become `any` (R171). -/
def Memory.forget (m : Memory) (n : Nat) : Memory := m.filter (fun c => n ≤ c.1)

/-- One read of a byte: what was written there, or the free value of this read where the byte holds `any` (R31). -/
def Memory.readOr (m : Memory) (a : Nat) (free : Byte) : Byte := (Memory.lookup m a).getD free

/-- The contents of a buffer. -/
def State.buffer (s : State) : Buffer → Memory
  | .keybuf => s.keybuf
  | .ibuf => s.ibuf
  | .obuf => s.obuf

/-- Replace the contents of a buffer. -/
def State.setBuffer (s : State) : Buffer → Memory → State
  | .keybuf, m => s.setKeybuf m
  | .ibuf, m => s.setIbuf m
  | .obuf, m => s.setObuf m

/-- The size of a buffer in bytes (R22, R23, R24). -/
def Buffer.size (cfg : Config) : Buffer → Nat
  | .keybuf => cfg.keyMax
  | .ibuf => cfg.bufMax
  | .obuf => cfg.bufMax

/-! ## Free values -/

/-- The `k`-th unspecified byte drawn from this state. -/
def State.freeByte (s : State) (k : Nat) : Byte := Config.freeByte (s.draws + k)

/-- The `k`-th unspecified word drawn from this state. -/
def State.freeWord (s : State) (k : Nat) : Word := Config.freeWord (s.draws + k)

/-- A table of unspecified words, the draws `k` to `k + n - 1` of this state. -/
def State.freeTable (s : State) (n k : Nat) : Vector Word n :=
  ⟨((List.range n).map (fun j => s.freeWord (k + j))).toArray, by simp⟩

/-! ## Errors and faults -/

/-- `fault b` (R14, R152): set the sticky bit and change nothing else. The action that caused it is dropped by its caller. -/
def State.raise (s : State) (b : FaultBit) : State := s.setFaultBits (s.faultBits ||| b.mask)

/-- The end of every completion step: a write of `RESULT.CODE` and `BUSY <- 0` (R137). -/
def State.finish (s : State) (code : Byte) : State := (s.setResult code).setBusy false

/-- `raise LengthError` (R14, R151): `RESULT.CODE <- LENGTH_ERROR`, `BUSY <- 0`, and nothing else. There is no return from it:
the core is idle as after any command (R157). -/
def State.raiseLengthError (s : State) : State := s.finish codeLengthError

/-! ## Reset -/

/-- How many bytes of `OBUF` a reset that strikes this command leaves unspecified (R171). -/
def Instr.abandonedBytes : Instr → Nat
  | .derive _ => 0
  | .encb => 8
  | .decb => 8
  | .ecbe n => n
  | .ecbd n => n

/-- `OBUF` after a reset: unchanged, but for the bytes of a command in flight that the reset strikes (R34, R171). -/
def State.obufAfterReset (s : State) : Memory :=
  if s.busy then Memory.forget s.obuf (Instr.abandonedBytes s.cur) else s.obuf

/-- `L`, `R`, `P`, `S` and `CUR` become `any` (R170): the words of `P`, then of `S[0]` to `S[3]`, then `L` and `R`, are the
next 18 + 1024 + 2 draws, and the command is the draw after them (DEDUCED, safe, log entry 6). -/
def State.scramble (s : State) : State :=
  ((((s.setSched
    { p := s.freeTable 18 0
      s := #v[s.freeTable 256 18, s.freeTable 256 274, s.freeTable 256 530, s.freeTable 256 786] }).setHalves
    { l := s.freeWord 1042, r := s.freeWord 1043 }).setCur (Config.freeCommand (s.draws + 1044))).advance 1045)

/-- The control bits after every reset (R34, R170). -/
def State.clearControl (s : State) : State :=
  (((s.setBusy false).setSv false).setResult codeOk).setFaultBits 0

/-- The host action `Reset` (R170, R171). It returns nothing. -/
def State.applyReset (s : State) : State :=
  ((s.setObuf s.obufAfterReset).scramble.clearControl).setReply none

/-- Power-on: a reset at which the three buffers hold `any` as well (R170). -/
def State.applyPowerOn (s : State) : State :=
  ((((s.scramble.clearControl).setKeybuf []).setIbuf []).setObuf []).setReply none

end Sys2Proof.Machine
end

