-- ==== Sys2Proof/Machine/Operands.lean ====
section
/-! DEFINITION. How commands read and write the buffers: bytes to words and back, big-endian (R13, R42, R43), the stream of
secret bytes (R82), and which counts fit (R136). -/

namespace Sys2Proof.Machine

/-- `BE32(b0, b1, b2, b3)`: four bytes as a word, `b0` most significant (R13). -/
def be32 (b0 b1 b2 b3 : Byte) : Word := b0 ++ b1 ++ b2 ++ b3

/-- `MemRead(space, a, n)`: `n` consecutive bytes from index `a`, the first most significant (R13). Byte `k` of them, where it
holds `any`, is `free k`. -/
def memRead (m : Memory) (a : Nat) (free : Nat → Byte) : (n : Nat) → BitVec (8 * n)
  | 0 => 0
  | n + 1 => memRead m a free n ++ Memory.readOr m (a + n) (free n)

/-- `MemWrite(space, a, n, v)`: `space[a+k] <- v[8(n-k)-1 : 8(n-k-1)]` for `k = 0..n-1` (R13). -/
def memWrite (m : Memory) (a n : Nat) (v : BitVec (8 * n)) : Memory :=
  (List.range n).foldl (fun m k => Memory.write m (a + k) (v.extractLsb' (8 * (n - k - 1)) 8)) m

/-- The block at index `a` of `IBUF`: `L` from its first four bytes, `R` from the next four (R43). Its eight bytes are the
next eight draws of the state where they hold `any`. -/
def loadBlock (s : State) (a : Nat) : Block where
  l := memRead s.ibuf a s.freeByte 4
  r := memRead s.ibuf (a + 4) (fun k => s.freeByte (4 + k)) 4

/-- A block stored at index `a` of a buffer: `L` in the first four bytes, `R` in the next four (R43). -/
def storeBlock (m : Memory) (a : Nat) (b : Block) : Memory :=
  memWrite (memWrite m a 4 b.l) (a + 4) 4 b.r

/-- `key(m)` (R80, R82): byte `m` of the secret `KEYBUF[0..n-1]` repeated end to end, all zero if the secret is empty. Each
stream position is a read of its own: position `m` is draw `m` of the state where its byte holds `any` (DESIGN CHOICE, safe,
log entry 15). -/
def keyStream (s : State) (n m : Nat) : Byte :=
  if n = 0 then 0x00 else Memory.readOr s.keybuf (m % n) (s.freeByte m)

/-- `chunk(i)` (R80, R82): stream bytes `4i` to `4i+3`, the first in bits 31:24. -/
def chunk (key : Nat → Byte) (i : Nat) : Word :=
  be32 (key (4 * i)) (key (4 * i + 1)) (key (4 * i + 2)) (key (4 * i + 3))

/-- Whether a command's count fits its buffer (R136 step 3). -/
def Instr.inRange (cfg : Config) : Instr → Bool
  | .derive n => n ≤ cfg.keyMax
  | .encb => true
  | .decb => true
  | .ecbe n => n ≤ cfg.bufMax
  | .ecbd n => n ≤ cfg.bufMax

/-- Whether a command needs a valid schedule (R136 step 4): every one but DERIVE, which makes one. -/
def Instr.needsSchedule : Instr → Bool
  | .derive _ => false
  | .encb => true
  | .decb => true
  | .ecbe _ => true
  | .ecbd _ => true

end Sys2Proof.Machine
end

