-- ==== Sys2Proof/Machine/BlockTransform.lean ====
section
/-! DEFINITION. Unit BT (spec/41_block_transform.md): the round function, the sixteen rounds, encrypt and decrypt, and the
commands ENCB and DECB. -/

namespace Sys2Proof.Machine

/-- The F-function (R90): the bytes of `x`, most significant first, index `S[0]` to `S[3]`. -/
def feistelF (t : Vector (Vector Word 256) 4) (x : Word) : Word :=
  let a := x.extractLsb' 24 8
  let b := x.extractLsb' 16 8
  let c := x.extractLsb' 8 8
  let d := x.extractLsb' 0 8
  let t1 := t[0][a.toFin] + t[1][b.toFin]
  let t2 := t1 ^^^ t[2][c.toFin]
  t2 + t[3][d.toFin]

/-- `ROUND(k)` (R91): mix the subkey into the left half, `F` of the left half into the right half, exchange the halves. -/
def feistelRound (t : Vector (Vector Word 256) 4) (b : Block) (k : Word) : Block :=
  let l := b.l ^^^ k
  let r := b.r ^^^ feistelF t l
  { l := r, r := l }

/-- `FINAL(kr, kl)` (R92): exchange the halves back, then the two remaining subkeys. -/
def finalStep (kr kl : Word) (b : Block) : Block where
  l := b.r ^^^ kl
  r := b.l ^^^ kr

/-- `ENC` (R93): rounds with `P[0]` to `P[15]`, then `FINAL(P[16], P[17])`. -/
def enc (k : KeySchedule) (b : Block) : Block :=
  finalStep k.p[16] k.p[17] ((k.p.toList.take 16).foldl (feistelRound k.s) b)

/-- `DEC` (R94): rounds with `P[17]` down to `P[2]`, then `FINAL(P[1], P[0])`. -/
def dec (k : KeySchedule) (b : Block) : Block :=
  finalStep k.p[1] k.p[0] ((k.p.toList.drop 2).reverse.foldl (feistelRound k.s) b)

/-- Transform the block at index `a` of `IBUF` into the same indices of `OBUF`, through the half registers: the body shared by
ENCB, DECB (R100, R101, with `a` = 0) and the loop of the ECB driver (R110). It reads eight bytes, so eight draws pass. -/
def transformBlock (t : KeySchedule → Block → Block) (a : Nat) (s : State) : State :=
  let b := t s.sched (loadBlock s a)
  ((s.setHalves b).setObuf (storeBlock s.obuf a b)).advance 8

/-- `ENCB` (R100): the completion step. -/
def execEncb (s : State) : Host.Outcome State Fault Refusal :=
  .next ((transformBlock enc 0 s).finish codeOk)

/-- `DECB` (R101): the completion step. -/
def execDecb (s : State) : Host.Outcome State Fault Refusal :=
  .next ((transformBlock dec 0 s).finish codeOk)

end Sys2Proof.Machine
end

