-- ==== Sys2Proof/Machine/EcbDriver.lean ====
section
/-! DEFINITION. Unit ECB (spec/42_ecb_driver.md): the loop over blocks, the length check, and the commands ECBE and ECBD. -/

namespace Sys2Proof.Machine

/-- `ECB(T, n)` (R110): the blocks `0` to `n div 8 - 1`, in ascending order; block `q` lies at indices `8q` to `8q+7`. -/
def ecbLoop (t : KeySchedule → Block → Block) (n : Nat) (s : State) : State :=
  (List.range (n / 8)).foldl (fun s q => transformBlock t (8 * q) s) s

/-- The completion step shared by ECBE and ECBD (R111, R112, R113): the length is checked before any block is touched. A count
past the end of the buffers would reach bytes that do not exist, which the check of R136 keeps from happening. -/
def ecbIn (cfg : Config) (t : KeySchedule → Block → Block) (n : Nat) (s : State) : Host.Outcome State Fault Refusal :=
  if n % 8 ≠ 0 then .next s.raiseLengthError
  else if n ≤ cfg.bufMax then .next ((ecbLoop t n s).finish codeOk)
  else .fault .noSuchByte

/-- `ECBE n` (R112): the completion step. -/
def execEcbe (n : Nat) (s : State) : Host.Outcome State Fault Refusal :=
  ecbIn Config.standard enc n s

/-- `ECBD n` (R113): the completion step. -/
def execEcbd (n : Nat) (s : State) : Host.Outcome State Fault Refusal :=
  ecbIn Config.standard dec n s

end Sys2Proof.Machine
end

