-- ==== Sys2Proof/Machine/KeySchedule.lean ====
section
/-! DEFINITION. Unit KS (spec/40_key_schedule.md): the construction of a key schedule from a stream of secret bytes, and the
command DERIVE. -/

namespace Sys2Proof.Machine

/-- A schedule under construction and the running block (R33, R84). -/
structure Working where
  sched : KeySchedule
  run : Block
  deriving DecidableEq, Repr

/-- Step 2 (R83): XOR each of the 18 words of the Round-Key Table, in order, with its chunk. -/
def xorPass (key : Nat → Byte) (p : Vector Word 18) : Vector Word 18 :=
  (List.finRange 18).foldl (fun p (i : Fin 18) => p.set i (p[i] ^^^ chunk key i)) p

/-- Steps 1 and 2 and the start of step 3 (R81, R83, R84): the Initialization Constant with the secret mixed into its
Round-Key Table, and a running block of zero. -/
def startWorking (init : KeySchedule) (key : Nat → Byte) : Working where
  sched := { p := xorPass key init.p, s := init.s }
  run := { l := 0, r := 0 }

/-- One encryption of step 3 (R85): encrypt the running block under the schedule as it stands, then replace `P[2m]` and
`P[2m+1]` by its halves. -/
def replaceRoundKeys (w : Working) (m : Fin 9) : Working :=
  let b := enc w.sched w.run
  { sched := { p := (w.sched.p.set (2 * m.val) b.l).set (2 * m.val + 1) b.r, s := w.sched.s }, run := b }

/-- Two neighbouring entries of one substitution table replaced by the halves of a block (R86). -/
def setPair (t : Vector (Vector Word 256) 4) (i : Fin 4) (m : Fin 128) (b : Block) : Vector (Vector Word 256) 4 :=
  t.set i ((t[i].set (2 * m.val) b.l).set (2 * m.val + 1) b.r)

/-- One encryption of step 4 (R86): encrypt the running block under the schedule as it stands, then replace `S[t][2m]` and
`S[t][2m+1]` by its halves. -/
def replaceTableWords (t : Fin 4) (w : Working) (m : Fin 128) : Working :=
  let b := enc w.sched w.run
  { sched := { p := w.sched.p, s := setPair w.sched.s t m b }, run := b }

/-- Step 3 (R85): nine encryptions, `i` = 0, 2, ..., 16. -/
def roundKeyPass (w : Working) : Working := (List.finRange 9).foldl replaceRoundKeys w

/-- Step 4 for one table (R86): 128 encryptions, `j` = 0, 2, ..., 254. -/
def tablePass (w : Working) (t : Fin 4) : Working := (List.finRange 128).foldl (replaceTableWords t) w

/-- The whole construction (R80): the finished schedule and the last running block. -/
def buildSchedule (init : KeySchedule) (key : Nat → Byte) : Working :=
  (List.finRange 4).foldl tablePass (roundKeyPass (startWorking init key))

/-- The state after the completion step of DERIVE (R80): `P`, `S`, `L`, `R` replaced, `SV` = 1. Eighteen chunks take 72 stream
bytes, so 72 draws pass. -/
def deriveEffect (cfg : Config) (n : Nat) (s : State) : State :=
  let w := buildSchedule cfg.init (keyStream s n)
  ((((s.setSched w.sched).setHalves w.run).setSv true).advance 72).finish codeOk

/-- `DERIVE n` with a given configuration. The stream reads `KEYBUF[0..n-1]`, and of those only the first 72 (R89(b)): where one
of them lies past the end of KEYBUF the step stops, which the check of R136 keeps from happening. -/
def deriveIn (cfg : Config) (n : Nat) (s : State) : Host.Outcome State Fault Refusal :=
  if min n 72 ≤ cfg.keyMax then .next (deriveEffect cfg n s) else .fault .noSuchByte

/-- `DERIVE n` (R80): the completion step. -/
def execDerive (n : Nat) (s : State) : Host.Outcome State Fault Refusal :=
  deriveIn Config.standard n s

end Sys2Proof.Machine
end

