-- ==== Sys2Proof/Machine/Configured.lean ====
section
/-! DEFINITION. The completion steps with the parameters of R7 as arguments of the step relation (R32). `exec` is this at the defaults. -/

namespace Sys2Proof.Machine

/-- The completion step of each command (R137) in the machine with a given configuration. -/
def execIn (cfg : Config) (i : Instr) (s : State) : Host.Outcome State Fault Refusal :=
  match i with
  | .derive n => deriveIn cfg n s
  | .encb => execEncb s
  | .decb => execDecb s
  | .ecbe n => ecbIn cfg enc n s
  | .ecbd n => ecbIn cfg dec n s

end Sys2Proof.Machine
end

