-- ==== Sys2Proof/Machine/Dispatch.lean ====
section
/-! DEFINITION. The completion step of each command (R137): one arm per constructor, each one call of its meaning. -/

namespace Sys2Proof.Machine

def exec (i : Instr) (s : State) : Host.Outcome State Fault Refusal :=
  match i with
  | .derive n => Sys2Proof.Machine.execDerive n s
  | .encb => Sys2Proof.Machine.execEncb s
  | .decb => Sys2Proof.Machine.execDecb s
  | .ecbe n => Sys2Proof.Machine.execEcbe n s
  | .ecbd n => Sys2Proof.Machine.execEcbd n s

end Sys2Proof.Machine
end

