-- ==== Sys2Proof/Machine/HostPort.lean ====
section
/-! DEFINITION. What the host can do at the host port (spec/43_host_access.md): register and buffer accesses (R131 to R135), the
issue of a command (R136), the flat address map (R48), and reset. -/

namespace Sys2Proof.Machine

/-! ## Issue of a command -/

/-- The fault a decoded command meets at steps 3 and 4 of the issue check, in that order; `none` where both pass (R136). -/
def refusalOf (cfg : Config) (i : Instr) (s : State) : Option FaultBit :=
  if Instr.inRange cfg i = false then some .range
  else if Instr.needsSchedule i && !s.sv then some .nosched
  else none

/-- Step 5 of the issue check (R136): `CUR` latched, `BUSY` set, and for DERIVE `SV` cleared at once (R21). -/
def accept (i : Instr) (s : State) : State :=
  ((s.setCur i).setBusy true).setSv (if Instr.needsSchedule i then s.sv else false)

/-- A write of a command word to CMD (R136): the checks in their order, the first that fails ending the action. -/
def issue (cfg : Config) (w : Word) (s : State) : State :=
  if s.busy then s.raise .busyviol
  else match decode w with
    | .error _ => s.raise .illegal
    | .ok i =>
      match refusalOf cfg i s with
      | some b => s.raise b
      | none => accept i s

/-! ## Register and buffer accesses -/

/-- `RegRead` (R131): STATUS, RESULT and FAULT change nothing; CMD is write-only. -/
def regRead (r : Reg) (s : State) : State :=
  match r with
  | .status => s.setReply (some (.word s.statusWord))
  | .result => s.setReply (some (.word s.resultWord))
  | .fault => s.setReply (some (.word s.faultWord))
  | .cmd => (s.raise .access).setReply (some (.word 0))

/-- The answer to every write that has no writable target: the busy check comes first (R132, R135). -/
def State.dropWrite (s : State) : State := if s.busy then s.raise .busyviol else s.raise .access

/-- `RegWrite` (R132, R136): only CMD can be written. -/
def regWrite (cfg : Config) (r : Reg) (w : Word) (s : State) : State :=
  match r with
  | .cmd => (issue cfg w s).setReply none
  | .status => s.dropWrite.setReply none
  | .result => s.dropWrite.setReply none
  | .fault => s.dropWrite.setReply none

/-- `ByteWrite` (R133). -/
def byteWrite (cfg : Config) (b : Buffer) (k : Nat) (v : Byte) (s : State) : State :=
  if s.busy then (s.raise .busyviol).setReply none
  else if b = .obuf then (s.raise .access).setReply none
  else if b.size cfg ≤ k then (s.raise .access).setReply none
  else (s.setBuffer b (Memory.write (s.buffer b) k v)).setReply none

/-- `ByteRead` (R134). A read while a command is in flight, or of a byte nothing has written, returns `any`: the next draw. -/
def byteRead (cfg : Config) (b : Buffer) (k : Nat) (s : State) : State :=
  if b.size cfg ≤ k then (s.raise .access).setReply (some (.byte 0x00))
  else if s.busy then (s.setReply (some (.byte (s.freeByte 0)))).advance 1
  else
    match Memory.lookup (s.buffer b) k with
    | some v => s.setReply (some (.byte v))
    | none => (s.setReply (some (.byte (s.freeByte 0)))).advance 1

/-- What a read that reaches nothing returns: 0, in its own width (R135). -/
def zeroReply : Width → Reply
  | .word => .word 0
  | .byte => .byte 0

/-- One host action (R130). -/
def hostStep (cfg : Config) (a : HostAction) (s : State) : State :=
  match a with
  | .regRead r => regRead r s
  | .regWrite r w => regWrite cfg r w s
  | .byteRead b k => byteRead cfg b k s
  | .byteWrite b k v => byteWrite cfg b k v s
  | .strayRead width => (s.raise .access).setReply (some (zeroReply width))
  | .strayWrite _ => s.dropWrite.setReply none
  | .reset => s.applyReset

/-! ## The flat address map -/

/-- The offsets of the registers (R25, R27, R29, R30, R48). -/
def Reg.offset : Reg → Nat
  | .cmd => 0x00
  | .status => 0x04
  | .result => 0x08
  | .fault => 0x0C

/-- The base addresses of the buffer windows, each of 0x10000 bytes (R48). -/
def Buffer.base : Buffer → Nat
  | .keybuf => 0x10000
  | .ibuf => 0x20000
  | .obuf => 0x30000

/-- The register a word access at this address reaches, if any (R48). -/
def regAt (a : Nat) : Option Reg := [Reg.cmd, .status, .result, .fault].find? (fun r => r.offset = a)

/-- The buffer in whose window this address lies, if any (R48). -/
def bufferAt (a : Nat) : Option Buffer :=
  [Buffer.keybuf, .ibuf, .obuf].find? (fun b => b.base ≤ a ∧ a < b.base + 0x10000)

/-- The host action that an access by flat address is (R48, R135): a word access reaches registers only, a byte access buffers
only, and everything else is an undefined address (DEDUCED, safe, log entry 13). -/
def BusAccess.toAction : BusAccess → HostAction
  | .readWord a => match regAt a with
    | some r => .regRead r
    | none => .strayRead .word
  | .writeWord a w => match regAt a with
    | some r => .regWrite r w
    | none => .strayWrite .word
  | .readByte a => match bufferAt a with
    | some b => .byteRead b (a - b.base)
    | none => .strayRead .byte
  | .writeByte a v => match bufferAt a with
    | some b => .byteWrite b (a - b.base) v
    | none => .strayWrite .byte

end Sys2Proof.Machine
end

