-- ==== Sys2Proof/Machine/Sequencer.lean ====
section
/-! DEFINITION. The two agents in one order (R9, R50): the core's step `Complete` (R137), one event of the order, the step of the machine
with any configuration (R7, R32), and how a command is put in flight. -/

namespace Sys2Proof.Machine

/-- The core's one step (R137): enabled exactly when `BUSY` = 1, it performs the completion step of `CUR`, which is `run`. When `BUSY` = 0
the core has no step and the state is quiescent. -/
def complete (run : Instr → State → Host.Outcome State Fault Refusal) (s : State) : Host.Outcome State Fault Refusal :=
  if s.busy then run s.cur s else .next s

/-- One event: a transition of the host or of the core (R9). -/
def runEvent (cfg : Config) (run : Instr → State → Host.Outcome State Fault Refusal) (e : Event) (s : State) :
    Host.Outcome State Fault Refusal :=
  match e with
  | .host a => .next (hostStep cfg a s)
  | .bus a => .next (hostStep cfg a.toAction s)
  | .complete => complete run s
  | .powerOn => .next s.applyPowerOn

/-- The next transition of the hardware. Where the order has come to its end the host does nothing more, and the core takes the step
it is able to take (R182; DESIGN CHOICE, safe, log entry 2). -/
def advanceMachine (cfg : Config) (run : Instr → State → Host.Outcome State Fault Refusal) (s : State) :
    Host.Outcome State Fault Refusal :=
  match s.events with
  | [] => complete run s
  | e :: rest => runEvent cfg run e (s.setEvents rest)

/-- One transition of the machine with a given configuration: the parameters of R7 are parameters of the step relation (R32). -/
def stepIn (cfg : Config) (s : State) : Host.Outcome State Fault Refusal := advanceMachine cfg (execIn cfg) s

/-- A command in flight, as its acceptance leaves it (R136 step 5, R176): `CUR`, `BUSY`, and `SV` as the command needs it. The core's
step is made the next one. -/
def putInFlight (i : Instr) (s : State) : State :=
  (((s.setCur i).setBusy true).setSv (Instr.needsSchedule i)).setEvents
    (match s.events with
      | [] => []
      | es => .complete :: es)

/-- A word that no command in flight can come from is left to the host to write to CMD next, with the core idle. -/
def putOnPort (w : Word) (s : State) : State :=
  (s.setBusy false).setEvents (.host (.regWrite .cmd w) :: s.events)

/-- Put a command word where the very next step runs it: in flight if it is a command whose count is in range, else on the port,
where the next step refuses it. -/
def placeWord (cfg : Config) (w : Word) (s : State) : State :=
  match decode w with
  | .ok i => if Instr.inRange cfg i then putInFlight i s else putOnPort w s
  | .error _ => putOnPort w s

end Sys2Proof.Machine
end

