-- ==== Sys2Proof/Machine/Step.lean ====
section
/-! DEFINITION. The step of the machine with the default parameters, and how the host places one command for it. -/

namespace Sys2Proof.Machine

/-- One transition of the hardware: the next event of the order, or the core's step where none is left (R9, R50). The parameters are
the defaults of R7 (log entry 9); `stepIn` is the same step with any others. -/
def step (s : State) : Host.Outcome State Fault Refusal := advanceMachine Config.standard exec s

/-- The state with a command placed so that the next step runs it (DESIGN CHOICE, safe, log entry 8). The word is the table's `nbits`
bits `w`, the bits above them zero. -/
def State.withFetchWord (s : State) (nbits w : Nat) : State :=
  placeWord Config.standard (BitVec.ofNat 32 (w % 2 ^ nbits)) s

end Sys2Proof.Machine
end

