-- ==== Sys2Proof/Machine/Script.lean ====
section
/-! DEFINITION. The host scripts of the spec (R66, R67): the lines, the expansion of the pseudo-lines, and a host that performs them, whose
next action can depend on what its last one returned. -/

namespace Sys2Proof.Machine

/-! ## Lines -/

/-- One line of a host script (R66). -/
inductive ScriptLine where
  /-- `RESET`. -/
  | reset
  /-- `WKEY k, b`. -/
  | wkey (k : Nat) (b : Byte)
  /-- `WIN k, b`. -/
  | win (k : Nat) (b : Byte)
  /-- `ROUT k`. -/
  | rout (k : Nat)
  /-- `RSTATUS`. -/
  | rstatus
  /-- `RRESULT`. -/
  | rresult
  /-- `RFAULT`. -/
  | rfault
  /-- `DERIVE n`, `ENCB`, `DECB`, `ECBE n`, `ECBD n`. -/
  | command (i : Instr)
  /-- `CMDW w`. -/
  | cmdw (w : Word)
  deriving DecidableEq, Repr

/-- The host action of a script line (R66). -/
def ScriptLine.action : ScriptLine → HostAction
  | .reset => .reset
  | .wkey k b => .byteWrite .keybuf k b
  | .win k b => .byteWrite .ibuf k b
  | .rout k => .byteRead .obuf k
  | .rstatus => .regRead .status
  | .rresult => .regRead .result
  | .rfault => .regRead .fault
  | .command i => .regWrite .cmd (encode i)
  | .cmdw w => .regWrite .cmd w

/-- A line or a pseudo-line (R67). -/
inductive ScriptItem where
  | line (x : ScriptLine)
  /-- `KEY b0 b1 ...`. -/
  | key (bytes : List Byte)
  /-- `KEY "text"`. -/
  | keyText (text : String)
  /-- `IN b0 b1 ...`. -/
  | input (bytes : List Byte)
  /-- `WAIT`. -/
  | wait
  /-- `OUT m`. -/
  | out (m : Nat)
  /-- `COPYBACK m`. -/
  | copyback (m : Nat)
  deriving DecidableEq, Repr

/-! ## Expansion -/

/-- What the host has to do for one line of an expanded script. -/
inductive HostTask where
  /-- Perform the line. -/
  | line (x : ScriptLine)
  /-- `RSTATUS`, again and again until the value read has bit 0 = 0. -/
  | poll
  /-- `ROUT k`, and the byte read is part of the script's result. -/
  | collect (k : Nat)
  /-- `ROUT k`, then `WIN k,` the byte read. -/
  | copy (k : Nat)
  deriving DecidableEq, Repr

/-- The bytes of the ASCII characters of a text, no terminator (R67). -/
def asciiBytes (text : String) : List Byte := text.toList.map (fun c => BitVec.ofNat 8 c.toNat)

/-- A run of byte writes at the indices 0, 1, ... (R67). -/
def writesFromZero (line : Nat → Byte → ScriptLine) (bytes : List Byte) : List HostTask :=
  bytes.zipIdx.map (fun c => .line (line c.2 c.1))

/-- The expansion of a pseudo-line (R67). -/
def ScriptItem.expand : ScriptItem → List HostTask
  | .line x => [.line x]
  | .key bytes => writesFromZero .wkey bytes
  | .keyText text => writesFromZero .wkey (asciiBytes text)
  | .input bytes => writesFromZero .win bytes
  | .wait => [.poll]
  | .out m => (List.range m).map .collect
  | .copyback m => (List.range m).map .copy

/-! ## The host that performs a script -/

/-- The line the host performs next for a task: every task but a plain line begins with a read. -/
def HostTask.next : HostTask → ScriptLine
  | .line x => x
  | .poll => .rstatus
  | .collect k => .rout k
  | .copy k => .rout k

/-- What is left of a task once its line has returned `reply`: a WAIT that has seen `BUSY` = 1 reads again, and a copy has its byte to
write. -/
def HostTask.remaining (task : HostTask) (reply : Option Reply) : List HostTask :=
  match task, reply with
  | .poll, some (.word w) => if w.getLsbD 0 then [.poll] else []
  | .copy k, some (.byte b) => [.line (.win k b)]
  | .poll, _ => []
  | .copy _, _ => []
  | .line _, _ => []
  | .collect _, _ => []

/-- The bytes a task adds to the script's result. -/
def HostTask.collected (task : HostTask) (reply : Option Reply) : List Byte :=
  match task, reply with
  | .collect _, some (.byte b) => [b]
  | .collect _, _ => []
  | .line _, _ => []
  | .poll, _ => []
  | .copy _, _ => []

/-- A script on its way: the hardware, what the host has still to do, and the script's result so far (R67). -/
structure ScriptRun where
  machine : State
  todo : List HostTask
  result : List Byte
  deriving DecidableEq, Repr

/-- A script about to be performed on the hardware. -/
def ScriptRun.start (script : List ScriptItem) (s : State) : ScriptRun where
  machine := s
  todo := (script.map ScriptItem.expand).flatten
  result := []

/-- Whose transition is next (R9). -/
inductive Turn where
  | host | core
  deriving DecidableEq, Repr

/-- The hardware takes this event next. -/
def perform (cfg : Config) (e : Event) (s : State) : Host.Outcome State Fault Refusal :=
  stepIn cfg (s.setEvents (e :: s.events))

/-- The host's turn: the next line, and what it does with what it read. A host with nothing left to do does nothing. -/
def ScriptRun.hostTurn (cfg : Config) (r : ScriptRun) : Host.Outcome ScriptRun Fault Refusal :=
  match r.todo with
  | [] => .next r
  | task :: rest =>
    match perform cfg (.host task.next.action) r.machine with
    | .next t => .next { machine := t, todo := task.remaining t.reply ++ rest, result := r.result ++ task.collected t.reply }
    | .fault f => .fault f
    | .refused x => .refused x

/-- The core's turn. -/
def ScriptRun.coreTurn (cfg : Config) (r : ScriptRun) : Host.Outcome ScriptRun Fault Refusal :=
  match perform cfg .complete r.machine with
  | .next t => .next { machine := t, todo := r.todo, result := r.result }
  | .fault f => .fault f
  | .refused x => .refused x

/-- One turn. -/
def ScriptRun.take (cfg : Config) (turn : Turn) (r : ScriptRun) : Host.Outcome ScriptRun Fault Refusal :=
  match turn with
  | .host => r.hostTurn cfg
  | .core => r.coreTurn cfg

/-- The turns of the two agents in the order given. Any order is allowed, and no rule bounds how many turns of the host come before one
of the core (R182; DESIGN CHOICE, safe, log entry 12). -/
def ScriptRun.run (cfg : Config) (turns : List Turn) (r : ScriptRun) : Host.Outcome ScriptRun Fault Refusal :=
  match turns with
  | [] => .next r
  | turn :: rest =>
    match r.take cfg turn with
    | .next r' => r'.run cfg rest
    | .fault f => .fault f
    | .refused x => .refused x

end Sys2Proof.Machine
end

