-- ==== Sys2Proof/Safety.lean ====
section
/-! DEFINITION. What counts as a good state and a good run of the hardware, in the terms the claims use. -/

namespace Sys2Proof.Machine

/-- Every index listed in a buffer is below the buffer's size. -/
abbrev Memory.Within (m : Memory) (size : Nat) : Prop := ∀ c ∈ m, c.1 < size

/-- A buffer in good order: canonical, and holding nothing past its end. -/
abbrev Memory.Good (m : Memory) (size : Nat) : Prop := Memory.wf m ∧ Memory.Within m size

/-- The invariant of the machine with a given configuration: it holds at reset and every transition keeps it. -/
structure State.Inv (cfg : Config) (s : State) : Prop where
  keybuf_good : Memory.Good s.keybuf cfg.keyMax
  ibuf_good : Memory.Good s.ibuf cfg.bufMax
  obuf_good : Memory.Good s.obuf cfg.bufMax
  /-- No other result code is ever produced (R29). -/
  result_code : s.result = codeOk ∨ s.result = codeLengthError
  /-- A command in flight has passed the issue checks, and `SV` is as its acceptance left it (R136, R176). -/
  flight : s.busy = true →
    Instr.wellFormed s.cur = true ∧ Instr.inRange cfg s.cur = true ∧ s.sv = Instr.needsSchedule s.cur

/-- What `SV` = 1 says (R21): `(P, S)` is the finished result of a construction from `INIT` and some secret's byte stream. -/
def State.SchedFinished (cfg : Config) (s : State) : Prop :=
  s.sv = true → ∃ key : Nat → Byte, s.sched = (buildSchedule cfg.init key).sched

/-- The secret of `DERIVE n` has been written (R140, inputs before command). -/
def State.SecretWritten (s : State) (n : Nat) : Prop := ∀ k < n, (Memory.lookup s.keybuf k).isSome = true

/-- The first `n` bytes of `IBUF` have been written (R140, inputs before command). -/
def State.InputWritten (s : State) (n : Nat) : Prop := ∀ k < n, (Memory.lookup s.ibuf k).isSome = true

/-- A run is over and good (R141): nothing left to do, no command in flight, no protocol fault. -/
def State.GoodEnd (s : State) : Prop := s.events = [] ∧ s.busy = false ∧ s.faultBits = 0

/-- The run of a host script is over (R141): the script has no more actions and `BUSY` = 0. -/
def ScriptRun.Over (r : ScriptRun) : Prop := r.todo = [] ∧ r.machine.busy = false

/-- Two commands of the same row of the opcode map (R63). -/
def Instr.SameRow (i j : Instr) : Prop :=
  (∃ n m, i = .derive n ∧ j = .derive m) ∨ (i = .encb ∧ j = .encb) ∨ (i = .decb ∧ j = .decb) ∨
  (∃ n m, i = .ecbe n ∧ j = .ecbe m) ∨ (∃ n m, i = .ecbd n ∧ j = .ecbd m)

/-- What is left of a state when the values R34 leaves unspecified, and nothing has defined since, are blotted out: the half
registers always, the schedule while `SV` = 0, the command while `BUSY` = 0. -/
def State.defined (s : State) : State :=
  ((s.setHalves ⟨0, 0⟩).setSched (if s.sv then s.sched else State.reset.sched)).setCur (if s.busy then s.cur else .derive 0)

/-- What is left of a state when the host has no path to is blotted out: `L`, `R`, `P`, `S` always, and `CUR` but for the claim a
reset makes on it while it is in flight (R130, R171). -/
def State.hostSide (s : State) : State :=
  ((s.setHalves ⟨0, 0⟩).setSched State.reset.sched).setCur (if s.busy then s.cur else .derive 0)

/-- The eight bytes of a block in the order they lie in a buffer (R43): `b0 = L[31:24]` to `b7 = R[7:0]`. -/
def Block.bytes (b : Block) : List Byte :=
  [b.l.extractLsb' 24 8, b.l.extractLsb' 16 8, b.l.extractLsb' 8 8, b.l.extractLsb' 0 8,
    b.r.extractLsb' 24 8, b.r.extractLsb' 16 8, b.r.extractLsb' 8 8, b.r.extractLsb' 0 8]

/-- The eight bytes of a buffer from index `a` have been written and are those of the block `b`. -/
def Memory.HoldsBlock (m : Memory) (a : Nat) (b : Block) : Prop :=
  ∀ j < 8, Memory.lookup m (a + j) = (Block.bytes b)[j]?

/-- What every command leaves as it was: its inputs, `CUR`, the sticky faults, and the host's side of the port. -/
structure State.CommandFrame (s t : State) : Prop where
  keybuf : t.keybuf = s.keybuf
  ibuf : t.ibuf = s.ibuf
  cur : t.cur = s.cur
  faultBits : t.faultBits = s.faultBits
  events : t.events = s.events
  reply : t.reply = s.reply

/-- What a host action that is not a reset leaves as it was in every case: everything the commands compute with but the input
buffers, which it may write, and `SV`, `BUSY` and `CUR`, which it may set by issuing a command. -/
structure State.HostFrame (s t : State) : Prop where
  l : t.l = s.l
  r : t.r = s.r
  sched : t.sched = s.sched
  obuf : t.obuf = s.obuf
  result : t.result = s.result
  events : t.events = s.events

end Sys2Proof.Machine
end

