-- ==== Sys2Proof/Certificates/Slice0/Obligations.lean ====
section
/-! DEFINITION. The statements for the provers, each from the numbered rules its docstring names. A free value (`Config.freeByte`,
`Config.freeWord`, `Config.freeCommand`) is never assumed to be anything in them. -/

open Sys2Proof Sys2Proof.Machine

/-! ## Command words (spec/30_encoding.md) -/

/-- R61 to R63: decoding the word of a well-formed command gives the command back, for every count the word can carry. -/
def Obligations.DecodeOfEncode : Prop :=
  ∀ i : Instr, i.wellFormed = true → decode (encode i) = .ok i

/-- R61 to R64: a word decodes to a well-formed command only, and only one word stands for each command. -/
def Obligations.DecodedCommandReencodes : Prop :=
  ∀ (w : Word) (i : Instr), decode w = .ok i → i.wellFormed = true ∧ encode i = w

/-- R63, R64: the decoder against the match and mask columns of the opcode map, word by word; `n` is bits 15:0 as they stand. A word
that matches none of the five patterns is illegal. -/
def Obligations.DecodeFollowsOpcodeMap : Prop :=
  ∀ w : Word,
    (w &&& 0xFFFF0000 = 0x01000000 → decode w = .ok (.derive (w &&& 0x0000FFFF).toNat)) ∧
    (w &&& 0xFFFFFFFF = 0x02000000 → decode w = .ok .encb) ∧
    (w &&& 0xFFFFFFFF = 0x03000000 → decode w = .ok .decb) ∧
    (w &&& 0xFFFF0000 = 0x04000000 → decode w = .ok (.ecbe (w &&& 0x0000FFFF).toNat)) ∧
    (w &&& 0xFFFF0000 = 0x05000000 → decode w = .ok (.ecbd (w &&& 0x0000FFFF).toNat)) ∧
    (w &&& 0xFFFF0000 ≠ 0x01000000 → w &&& 0xFFFFFFFF ≠ 0x02000000 → w &&& 0xFFFFFFFF ≠ 0x03000000 →
      w &&& 0xFFFF0000 ≠ 0x04000000 → w &&& 0xFFFF0000 ≠ 0x05000000 → ∃ e, decode w = .error e)

/-- R63: the five patterns are disjoint: a word that matches the patterns of two commands matches one row only, theirs. And the columns are
what the decoder follows: a word matches a command's pattern exactly if it decodes to a command of that row. -/
def Obligations.CommandPatternsDisjoint : Prop :=
  (∀ (w : Word) (i j : Instr), w &&& maskOf i = matchOf i → w &&& maskOf j = matchOf j → Instr.SameRow i j) ∧
  (∀ (w : Word) (i : Instr), w &&& maskOf i = matchOf i ↔ ∃ j : Instr, Instr.SameRow i j ∧ decode w = .ok j)

/-- Some words of R63 and of V10 (spec/95_test_vectors.md), one for each family and each way of being illegal. -/
def Obligations.SampleWordsDecode : Prop :=
  decode 0x01000008 = .ok (.derive 8) ∧ decode 0x02000000 = .ok .encb ∧ decode 0x03000000 = .ok .decb ∧
  decode 0x04000010 = .ok (.ecbe 16) ∧ decode 0x0500000f = .ok (.ecbd 15) ∧
  decode 0x02000001 = .error .countNotZero ∧ decode 0x00000000 = .error .undefinedOpcode ∧
  decode 0x04800010 = .error .reservedField

/-! ## The block transform (spec/41_block_transform.md) -/

/-- R90: the F-function as arithmetic on unsigned numbers, both additions modulo 2^32, for any tables and any word; and the rule's
worked example with the supplied `INIT_S` of R39, which the spec has from general knowledge (log entry 9). -/
def Obligations.RoundFunctionArithmetic : Prop :=
  (∀ (t : Vector (Vector Word 256) 4) (x : Word),
    (feistelF t x).toNat =
      ((((t[0][(x.extractLsb' 24 8).toFin]).toNat + (t[1][(x.extractLsb' 16 8).toFin]).toNat) % 2 ^ 32 ^^^
        (t[2][(x.extractLsb' 8 8).toFin]).toNat) + (t[3][(x.extractLsb' 0 8).toFin]).toNat) % 2 ^ 32) ∧
  feistelF Config.standard.init.s 0x00000000 = 0x2fcff51e

/-- R93: with `x k` the pair `(L, R)` after `k` rounds, `ENC` of `x 0` is `(R[16] xor P[17], L[16] xor P[16])`. -/
def Obligations.EncryptRecurrence : Prop :=
  ∀ (k : KeySchedule) (x : Nat → Block),
    (∀ r : Fin 16, x (r + 1) = ⟨(x r).r ^^^ feistelF k.s ((x r).l ^^^ k.p[r.val]), (x r).l ^^^ k.p[r.val]⟩) →
    enc k (x 0) = ⟨(x 16).r ^^^ k.p[17], (x 16).l ^^^ k.p[16]⟩

/-- R94: position `m` of encryption uses `P[m]`, the same position of decryption uses `P[17-m]`. -/
def Obligations.DecryptReadsTableBackwards : Prop :=
  ∀ (k q : KeySchedule) (b : Block),
    (∀ m : Fin 18, q.p[m] = k.p[17 - m.val]) → q.s = k.s → dec k b = enc q b

/-- R95: the round trip, for every block and every schedule, derived or not, in both orders. -/
def Obligations.BlockRoundTrip : Prop :=
  ∀ (k : KeySchedule) (b : Block), dec k (enc k b) = b ∧ enc k (dec k b) = b

/-- R96: under any fixed schedule both transforms are bijections of the 2^64 blocks. -/
def Obligations.TransformsAreBijections : Prop :=
  ∀ k : KeySchedule, Function.Bijective (enc k) ∧ Function.Bijective (dec k)

/-! ## The key schedule (spec/40_key_schedule.md) -/

/-- R82: byte `j` of chunk `i`, the most significant first, is stream byte `4i + j`, and where the secret has been written that is
`KEYBUF[(4i + j) mod n]`: the position carries on from chunk to chunk. An empty secret gives zero chunks. -/
def Obligations.ChunksCycleTheSecret : Prop :=
  (∀ (s : State) (n i : Nat) (j : Fin 4), 0 < n → State.SecretWritten s n →
    Memory.lookup s.keybuf ((4 * i + j.val) % n) = some ((chunk (keyStream s n) i).extractLsb' (24 - 8 * j.val) 8)) ∧
  (∀ (s : State) (i : Nat), chunk (keyStream s 0) i = 0)

/-- R81, R83: after the XOR pass `P[i] = INIT_P[i] xor chunk(i)` for every `i`, and the substitution tables are those of `INIT`. -/
def Obligations.XorPassMixesSecret : Prop :=
  ∀ (init : KeySchedule) (key : Nat → Byte),
    (∀ i : Fin 18, (startWorking init key).sched.p[i] = init.p[i] ^^^ chunk key i.val) ∧
    (startWorking init key).sched.s = init.s

/-- R84, R85: the Round-Key Table of the finished schedule `f`. The encryption that gives `P[2m]`, `P[2m+1]` takes the output of the
one before it (zero at the start) and reads the new values in `P[0..2m-1]`, the values of step 2 in `P[2m..17]`, and `S = INIT_S`. -/
def Obligations.RoundKeysFromChainedEncryptions : Prop :=
  ∀ (init : KeySchedule) (key : Nat → Byte) (m : Fin 9) (q : KeySchedule) (prev : Block),
    (∀ i : Fin 18, q.p[i] =
      if i.val < 2 * m.val then (buildSchedule init key).sched.p[i] else init.p[i] ^^^ chunk key i.val) →
    q.s = init.s →
    (m.val = 0 → prev = ⟨0, 0⟩) →
    (∀ h : 0 < m.val, prev = ⟨(buildSchedule init key).sched.p[2 * m.val - 2], (buildSchedule init key).sched.p[2 * m.val - 1]⟩) →
    enc q prev = ⟨(buildSchedule init key).sched.p[2 * m.val], (buildSchedule init key).sched.p[2 * m.val + 1]⟩

/-- R84, R86: the Substitution Tables of the finished schedule `f`. The encryption that gives `S[t][2m]`, `S[t][2m+1]` takes the two
words replaced just before (for the first, `P[16]` and `P[17]`: the running block is not reset) and reads the finished `P`, the new
values in every entry already replaced, and `INIT_S` in the rest. -/
def Obligations.TableWordsFromChainedEncryptions : Prop :=
  ∀ (init : KeySchedule) (key : Nat → Byte) (t : Fin 4) (m : Fin 128) (q : KeySchedule) (prev : Block),
    q.p = (buildSchedule init key).sched.p →
    (∀ (u : Fin 4) (j : Fin 256), q.s[u][j] =
      if 256 * u.val + j.val < 256 * t.val + 2 * m.val then (buildSchedule init key).sched.s[u][j] else init.s[u][j]) →
    (t.val = 0 → m.val = 0 → prev = ⟨(buildSchedule init key).sched.p[16], (buildSchedule init key).sched.p[17]⟩) →
    (∀ h : 0 < t.val, m.val = 0 →
      prev = ⟨(buildSchedule init key).sched.s[t.val - 1][254], (buildSchedule init key).sched.s[t.val - 1][255]⟩) →
    (∀ h : 0 < m.val,
      prev = ⟨(buildSchedule init key).sched.s[t][2 * m.val - 2], (buildSchedule init key).sched.s[t][2 * m.val - 1]⟩) →
    enc q prev = ⟨(buildSchedule init key).sched.s[t][2 * m.val], (buildSchedule init key).sched.s[t][2 * m.val + 1]⟩

/-- R80, R87: in every state `DERIVE n` with `n` ≤ `KEY_MAX` = 72 (log entry 9) completes: the schedule is the one built from `INIT` and the stream
of the secret, `L` and `R` are the last two words written, `SV` = 1, RESULT = `OK`, `BUSY` = 0. Nothing else changes: no byte of any
buffer, no fault bit, not `CUR`. -/
def Obligations.DeriveCompletes : Prop :=
  ∀ (n : Nat) (s : State), n ≤ 72 → ∃ t : State, exec (.derive n) s = .next t ∧
    t.sched = (buildSchedule Config.standard.init (keyStream s n)).sched ∧
    t.l = t.sched.s[3][254] ∧ t.r = t.sched.s[3][255] ∧
    t.sv = true ∧ t.result = 0x00 ∧ t.busy = false ∧ t.obuf = s.obuf ∧ State.CommandFrame s t

/-- R89(a), R81: what DERIVE makes depends on `n` and the secret only, not on any earlier state; for every `n` up to
`KEY_MAX` = 72 (log entry 9). -/
def Obligations.DeriveIgnoresEarlierState : Prop :=
  ∀ (n : Nat) (s u : State), n ≤ 72 → State.SecretWritten s n →
    (∀ k < n, Memory.lookup u.keybuf k = Memory.lookup s.keybuf k) →
    ∃ t v : State, exec (.derive n) s = .next t ∧ exec (.derive n) u = .next v ∧
      v.sched = t.sched ∧ v.l = t.l ∧ v.r = t.r

/-- R89(b): only the first 72 stream bytes matter. Stated for every configuration, since it says something only where `KEY_MAX` can
hold more than 72 bytes. -/
def Obligations.OnlyFirst72BytesMatter : Prop :=
  ∀ (cfg : Config) (n : Nat) (s : State), 72 ≤ n → n ≤ cfg.keyMax → State.SecretWritten s n →
    ∃ t v : State, deriveIn cfg n s = .next t ∧ deriveIn cfg 72 s = .next v ∧
      v.sched = t.sched ∧ v.l = t.l ∧ v.r = t.r

/-- R89(c): a secret and the same secret written `c` times in a row give the same schedule, where both fit
`KEY_MAX` = 72 (log entry 9). -/
def Obligations.RepeatedSecretSameSchedule : Prop :=
  ∀ (n c : Nat) (s u : State), 0 < c → c * n ≤ 72 → State.SecretWritten s n →
    (∀ k < c * n, Memory.lookup u.keybuf k = Memory.lookup s.keybuf (k % n)) →
    ∃ t v : State, exec (.derive n) s = .next t ∧ exec (.derive (c * n)) u = .next v ∧
      v.sched = t.sched ∧ v.l = t.l ∧ v.r = t.r

/-- R88: `DERIVE 0` gives the same `(P, S)` as `DERIVE n` on `n` bytes of 0x00, `n` up to `KEY_MAX` = 72 (log entry 9). -/
def Obligations.EmptySecretIsAllZeroSecret : Prop :=
  ∀ (n : Nat) (s u : State), n ≤ 72 → (∀ k < n, Memory.lookup u.keybuf k = some 0x00) →
    ∃ t v : State, exec (.derive 0) s = .next t ∧ exec (.derive n) u = .next v ∧
      v.sched = t.sched ∧ v.l = t.l ∧ v.r = t.r

/-! ## ENCB and DECB -/

/-- R100, R101: in every state ENCB and DECB complete with RESULT = `OK` and `BUSY` = 0. If `IBUF[0..7]` has been written and holds
the block `b`, then `(L, R)` and `OBUF[0..7]` are its transform. Every other byte of OBUF keeps its value, and `P`, `S`, `SV`, the input
buffers, `CUR` and FAULT are unchanged. -/
def Obligations.BlockCommandsComplete : Prop :=
  ∀ (i : Instr) (f : KeySchedule → Block → Block), (i = .encb ∧ f = enc) ∨ (i = .decb ∧ f = dec) →
    ∀ s : State, ∃ t : State, exec i s = .next t ∧
      (∀ b : Block, Memory.HoldsBlock s.ibuf 0 b →
        t.l = (f s.sched b).l ∧ t.r = (f s.sched b).r ∧ Memory.HoldsBlock t.obuf 0 (f s.sched b)) ∧
      (∀ a : Nat, 8 ≤ a → Memory.lookup t.obuf a = Memory.lookup s.obuf a) ∧
      t.sched = s.sched ∧ t.sv = s.sv ∧ t.result = 0x00 ∧ t.busy = false ∧ State.CommandFrame s t

/-- R47, R101, R95: a block encrypted by ENCB, copied back to IBUF and decrypted by DECB under the same schedule, is the block. -/
def Obligations.BlockCommandsInvert : Prop :=
  ∀ (s u : State) (b : Block), Memory.HoldsBlock s.ibuf 0 b →
    ∃ t : State, exec .encb s = .next t ∧
      (u.sched = s.sched → (∀ a < 8, Memory.lookup u.ibuf a = Memory.lookup t.obuf a) →
        ∃ v : State, exec .decb u = .next v ∧ Memory.HoldsBlock v.obuf 0 b)

/-! ## ECBE and ECBD (spec/42_ecb_driver.md) -/

/-- R110, R112, R113, R115: in every state ECBE and ECBD complete where `n` is a multiple of 8 and at most `BUF_MAX` = 4096 (log
entry 9). Each block `q`
of the output is the transform of block `q` of the input, where that has been written, and of nothing else; `(L, R)` are those of the last
block, or unchanged if there is none. Bytes of OBUF at `n` and above keep their value, and `P`, `S`, `SV`, the input buffers, `CUR` and FAULT
are unchanged. RESULT = `OK`, `BUSY` = 0. -/
def Obligations.EcbCommandsComplete : Prop :=
  ∀ (n : Nat) (i : Instr) (f : KeySchedule → Block → Block), (i = .ecbe n ∧ f = enc) ∨ (i = .ecbd n ∧ f = dec) →
    n % 8 = 0 → n ≤ 4096 →
    ∀ s : State, ∃ t : State, exec i s = .next t ∧
      (∀ (q : Nat) (b : Block), q < n / 8 → Memory.HoldsBlock s.ibuf (8 * q) b →
        Memory.HoldsBlock t.obuf (8 * q) (f s.sched b)) ∧
      (∀ b : Block, 8 ≤ n → Memory.HoldsBlock s.ibuf (n - 8) b → t.l = (f s.sched b).l ∧ t.r = (f s.sched b).r) ∧
      (n = 0 → t.l = s.l ∧ t.r = s.r) ∧
      (∀ a : Nat, n ≤ a → Memory.lookup t.obuf a = Memory.lookup s.obuf a) ∧
      t.sched = s.sched ∧ t.sv = s.sv ∧ t.result = 0x00 ∧ t.busy = false ∧ State.CommandFrame s t

/-- R111, R150, R151: a count that is not a multiple of 8 completes with `LENGTH_ERROR`, and nothing changes but RESULT and `BUSY`, not
even the full blocks that precede the partial one. -/
def Obligations.BadLengthChangesNothingElse : Prop :=
  ∀ (n : Nat) (s : State), n % 8 ≠ 0 →
    exec (.ecbe n) s = .next { s with result := 0x01, busy := false } ∧
    exec (.ecbd n) s = .next { s with result := 0x01, busy := false }

/-- R112: `ECBE 8` has the same result as `ENCB`, and `ECBD 8` as `DECB`. -/
def Obligations.EightByteEcbIsOneBlock : Prop :=
  ∀ s : State, exec (.ecbe 8) s = exec .encb s ∧ exec (.ecbd 8) s = exec .decb s

/-- R114: two equal blocks of the input, anywhere in it, give two equal blocks of the output; for every `n` up to `BUF_MAX` = 4096
(log entry 9). -/
def Obligations.EqualBlocksGiveEqualBlocks : Prop :=
  ∀ (n : Nat) (i : Instr), i = .ecbe n ∨ i = .ecbd n → n % 8 = 0 → n ≤ 4096 →
    ∀ (s : State) (p q : Nat), State.InputWritten s n → p < n / 8 → q < n / 8 →
      (∀ j < 8, Memory.lookup s.ibuf (8 * p + j) = Memory.lookup s.ibuf (8 * q + j)) →
      ∃ t : State, exec i s = .next t ∧
        ∀ j < 8, Memory.lookup t.obuf (8 * p + j) = Memory.lookup t.obuf (8 * q + j)

/-- R117, R95: for `n` a multiple of 8, if `ECBE n` turns input `x` into output `y` then `ECBD n` under the same schedule turns input `y`
into output `x`, and the other way round; for every `n` up to `BUF_MAX` = 4096 (log entry 9). -/
def Obligations.EcbCommandsInvert : Prop :=
  ∀ (n : Nat) (i j : Instr), (i = .ecbe n ∧ j = .ecbd n) ∨ (i = .ecbd n ∧ j = .ecbe n) → n % 8 = 0 → n ≤ 4096 →
    ∀ s u : State, State.InputWritten s n →
      ∃ t : State, exec i s = .next t ∧
        (u.sched = s.sched → (∀ a < n, Memory.lookup u.ibuf a = Memory.lookup t.obuf a) →
          ∃ v : State, exec j u = .next v ∧ ∀ a < n, Memory.lookup v.obuf a = Memory.lookup s.ibuf a)

/-- R116: what `ECBE n` and `ECBD n` write depends on `(P, S)`, `n` and `IBUF[0..n-1]` only; for every `n` up to `BUF_MAX` = 4096
(log entry 9). -/
def Obligations.EcbOutputIsDetermined : Prop :=
  ∀ (n : Nat) (i : Instr), i = .ecbe n ∨ i = .ecbd n → n % 8 = 0 → n ≤ 4096 →
    ∀ s u : State, State.InputWritten s n → u.sched = s.sched →
      (∀ a < n, Memory.lookup u.ibuf a = Memory.lookup s.ibuf a) →
      ∃ t v : State, exec i s = .next t ∧ exec i u = .next v ∧
        ∀ a < n, Memory.lookup v.obuf a = Memory.lookup t.obuf a

/-! ## The host port (spec/43_host_access.md) -/

/-- R27, R131: a read of STATUS returns `BUSY` in bit 0 and `SV` in bit 1, of RESULT the code, of FAULT the five bits, each with the rest
0, at any time and with no other effect. A read of CMD returns 0 and sets ACCESS. -/
def Obligations.RegisterReads : Prop :=
  ∀ (s : State) (rest : List Event),
    (s.events = .host (.regRead .status) :: rest → step s = .next { s with
      events := rest, reply := some (.word (BitVec.ofNat 32 (2 * s.sv.toNat + s.busy.toNat))) }) ∧
    (s.events = .host (.regRead .result) :: rest → step s = .next { s with
      events := rest, reply := some (.word (BitVec.ofNat 32 s.result.toNat)) }) ∧
    (s.events = .host (.regRead .fault) :: rest → step s = .next { s with
      events := rest, reply := some (.word (BitVec.ofNat 32 s.faultBits.toNat)) }) ∧
    (s.events = .host (.regRead .cmd) :: rest → step s = .next { s with
      events := rest, reply := some (.word 0), faultBits := s.faultBits ||| 0b10000 })

/-- R132, R135: a write to STATUS, RESULT or FAULT, or to an undefined address, is dropped: BUSYVIOL while `BUSY` = 1, else ACCESS.
No bit of FAULT is cleared by it. -/
def Obligations.ReadOnlyWritesDropped : Prop :=
  ∀ (s : State) (rest : List Event) (a : HostAction) (w : Word) (width : Width),
    a = .regWrite .status w ∨ a = .regWrite .result w ∨ a = .regWrite .fault w ∨ a = .strayWrite width →
    s.events = .host a :: rest →
    step s = .next { s with
      events := rest, reply := none, faultBits := s.faultBits ||| (if s.busy then 0b00010 else 0b10000) }

/-- R133: the four refusals and the store of `ByteWrite`, with `KEY_MAX` = 72 and `BUF_MAX` = 4096 (log entry 9). -/
def Obligations.ByteWrites : Prop :=
  ∀ (s : State) (rest : List Event) (b : Buffer) (k : Nat) (v : Byte),
    s.events = .host (.byteWrite b k v) :: rest →
    ∃ t : State, step s = .next t ∧
      (s.busy = true → t = { s with events := rest, reply := none, faultBits := s.faultBits ||| 0b00010 }) ∧
      (s.busy = false → b = .obuf ∨ (b = .keybuf ∧ 72 ≤ k) ∨ (b = .ibuf ∧ 4096 ≤ k) →
        t = { s with events := rest, reply := none, faultBits := s.faultBits ||| 0b10000 }) ∧
      (s.busy = false → b = .keybuf → k < 72 → t = { s with events := rest, reply := none, keybuf := t.keybuf } ∧
        ∀ a, Memory.lookup t.keybuf a = if a = k then some v else Memory.lookup s.keybuf a) ∧
      (s.busy = false → b = .ibuf → k < 4096 → t = { s with events := rest, reply := none, ibuf := t.ibuf } ∧
        ∀ a, Memory.lookup t.ibuf a = if a = k then some v else Memory.lookup s.ibuf a)

/-- R134: `ByteRead`, with `KEY_MAX` = 72 and `BUF_MAX` = 4096 (log entry 9). An index past the end returns 0 and sets ACCESS, also while
`BUSY` = 1; while idle a byte that has been written is returned and nothing else changes; otherwise some byte is returned, no rule says which,
and nothing changes but the count of draws (log entry 3). -/
def Obligations.ByteReads : Prop :=
  ∀ (s : State) (rest : List Event) (b : Buffer) (k : Nat),
    s.events = .host (.byteRead b k) :: rest →
    ∃ t : State, step s = .next t ∧
      ((b = .keybuf ∧ 72 ≤ k) ∨ (b = .ibuf ∧ 4096 ≤ k) ∨ (b = .obuf ∧ 4096 ≤ k) →
        t = { s with events := rest, reply := some (.byte 0x00), faultBits := s.faultBits ||| 0b10000 }) ∧
      ((b = .keybuf ∧ k < 72) ∨ (b = .ibuf ∧ k < 4096) ∨ (b = .obuf ∧ k < 4096) →
        (∀ v : Byte, s.busy = false → Memory.lookup (s.buffer b) k = some v →
          t = { s with events := rest, reply := some (.byte v) }) ∧
        (s.busy = true ∨ Memory.lookup (s.buffer b) k = none →
          ∃ v : Byte, t = { s with events := rest, reply := some (.byte v), draws := t.draws }))

/-- R48: the flat address map. Word accesses at 0x0, 0x4, 0x8 and 0xC reach the registers, reads and writes alike; byte accesses in the three
windows reach the buffers; a word access anywhere else, and a byte access outside the windows, is to an undefined address. A byte of a window at
or past the buffer's size (72, 4096 and 4096: log entry 9) goes to the buffer access, which answers it as it does an undefined address (log
entry 13). -/
def Obligations.FlatAddressMap : Prop :=
  (∀ w : Word,
    (BusAccess.readWord 0x00000).toAction = .regRead .cmd ∧ (BusAccess.writeWord 0x00000 w).toAction = .regWrite .cmd w ∧
    (BusAccess.readWord 0x00004).toAction = .regRead .status ∧ (BusAccess.writeWord 0x00004 w).toAction = .regWrite .status w ∧
    (BusAccess.readWord 0x00008).toAction = .regRead .result ∧ (BusAccess.writeWord 0x00008 w).toAction = .regWrite .result w ∧
    (BusAccess.readWord 0x0000C).toAction = .regRead .fault ∧ (BusAccess.writeWord 0x0000C w).toAction = .regWrite .fault w) ∧
  (∀ (k : Nat) (v : Byte), k < 0x10000 →
    (BusAccess.readByte (0x10000 + k)).toAction = .byteRead .keybuf k ∧
    (BusAccess.writeByte (0x10000 + k) v).toAction = .byteWrite .keybuf k v ∧
    (BusAccess.readByte (0x20000 + k)).toAction = .byteRead .ibuf k ∧
    (BusAccess.writeByte (0x20000 + k) v).toAction = .byteWrite .ibuf k v ∧
    (BusAccess.readByte (0x30000 + k)).toAction = .byteRead .obuf k ∧
    (BusAccess.writeByte (0x30000 + k) v).toAction = .byteWrite .obuf k v) ∧
  (∀ (a : Nat) (w : Word), a ≠ 0x0 → a ≠ 0x4 → a ≠ 0x8 → a ≠ 0xC →
    (BusAccess.readWord a).toAction = .strayRead .word ∧ (BusAccess.writeWord a w).toAction = .strayWrite .word) ∧
  (∀ (a : Nat) (v : Byte), a < 0x10000 ∨ 0x40000 ≤ a →
    (BusAccess.readByte a).toAction = .strayRead .byte ∧ (BusAccess.writeByte a v).toAction = .strayWrite .byte) ∧
  (∀ (s : State) (b : Buffer) (k : Nat) (v : Byte),
    (b = .keybuf ∧ 72 ≤ k) ∨ (b = .ibuf ∧ 4096 ≤ k) ∨ (b = .obuf ∧ 4096 ≤ k) →
    hostStep Config.standard (.byteRead b k) s = hostStep Config.standard (.strayRead .byte) s ∧
    hostStep Config.standard (.byteWrite b k v) s = hostStep Config.standard (.strayWrite .byte) s)

/-- R48, R50, R130: a step at an access by flat address is the step of the action that the access is, and a step at a host action is that
action, each with the event taken off the order (log entry 1). -/
def Obligations.HostEventsAreTheirActions : Prop :=
  ∀ (s : State) (rest : List Event),
    (∀ a : BusAccess, s.events = .bus a :: rest →
      step s = .next (hostStep Config.standard a.toAction { s with events := rest })) ∧
    (∀ a : HostAction, s.events = .host a :: rest → step s = .next (hostStep Config.standard a { s with events := rest }))

/-- R135: a read of an undefined address returns 0 and sets ACCESS, whether or not a command is in flight, and changes nothing else. -/
def Obligations.UndefinedReads : Prop :=
  ∀ (s : State) (rest : List Event),
    (s.events = .host (.strayRead .word) :: rest → step s = .next { s with
      events := rest, reply := some (.word 0), faultBits := s.faultBits ||| 0b10000 }) ∧
    (s.events = .host (.strayRead .byte) :: rest → step s = .next { s with
      events := rest, reply := some (.byte 0), faultBits := s.faultBits ||| 0b10000 })

/-- R136: a write of a word to CMD, with `KEY_MAX` = 72 and `BUF_MAX` = 4096 (log entry 9). The checks in their order are BUSYVIOL, ILLEGAL, RANGE,
NOSCHED, and a refused command changes no state but its one FAULT bit. A command that passes them is accepted: it is latched in `CUR` and sets
`BUSY`, DERIVE clears `SV` at once, and nothing else changes. -/
def Obligations.CommandIssue : Prop :=
  ∀ (s : State) (rest : List Event) (w : Word), s.events = .host (.regWrite .cmd w) :: rest →
    (s.busy = true → step s = .next { s with events := rest, reply := none, faultBits := s.faultBits ||| 0b00010 }) ∧
    (∀ e, s.busy = false → decode w = .error e →
      step s = .next { s with events := rest, reply := none, faultBits := s.faultBits ||| 0b00001 }) ∧
    (∀ n, s.busy = false →
      (decode w = .ok (.derive n) ∧ 72 < n) ∨ ((decode w = .ok (.ecbe n) ∨ decode w = .ok (.ecbd n)) ∧ 4096 < n) →
      step s = .next { s with events := rest, reply := none, faultBits := s.faultBits ||| 0b01000 }) ∧
    (∀ i n, s.busy = false → s.sv = false → decode w = .ok i →
      i = .encb ∨ i = .decb ∨ ((i = .ecbe n ∨ i = .ecbd n) ∧ n ≤ 4096) →
      step s = .next { s with events := rest, reply := none, faultBits := s.faultBits ||| 0b00100 }) ∧
    (∀ n, s.busy = false → decode w = .ok (.derive n) → n ≤ 72 →
      step s = .next { s with events := rest, reply := none, cur := .derive n, busy := true, sv := false }) ∧
    (∀ i n, s.busy = false → s.sv = true → decode w = .ok i →
      i = .encb ∨ i = .decb ∨ ((i = .ecbe n ∨ i = .ecbd n) ∧ n ≤ 4096) →
      step s = .next { s with events := rest, reply := none, cur := i, busy := true })

/-- R137: the core's turn performs the completion step of the command in flight; with none in flight the core has no step. -/
def Obligations.CompleteRunsCommandInFlight : Prop :=
  ∀ (s : State) (rest : List Event), s.events = .complete :: rest →
    (s.busy = true → step s = exec s.cur { s with events := rest }) ∧
    (s.busy = false → step s = .next { s with events := rest })

/-- A step runs the decoded command (R136, R137). (1) From an idle state with a schedule, the word of a well-formed command in range
written to CMD and then the core's turn: the first step accepts it, and the second is `exec` of it with that turn taken off the order. (2) For
such a command the model's own placement (log entry 8) makes the very next step `exec` of it. -/
def Obligations.StepRunsDecodedCommand : Prop :=
  (∀ (s : State) (rest : List Event) (w : Word) (i : Instr),
    decode w = .ok i → Instr.inRange Config.standard i = true → s.busy = false → s.sv = true →
    s.events = .host (.regWrite .cmd w) :: .complete :: rest →
    ∃ t : State, step s = .next t ∧ t.cur = i ∧ t.busy = true ∧ step t = exec i { t with events := rest }) ∧
  (∀ (s : State) (w : Nat) (i : Instr),
    decode (BitVec.ofNat 32 w) = .ok i → w < 2 ^ 32 → Instr.inRange Config.standard i = true →
    step (s.withFetchWord 32 w) =
      exec i { s with cur := i, busy := true, sv := Instr.needsSchedule i })

/-! ## Reset (spec/70_reset_and_hazards.md) -/

/-- R170, R171: a reset clears `BUSY`, `SV`, RESULT and FAULT and keeps every byte of KEYBUF and IBUF. It keeps every byte of OBUF too, but
for the bytes that the command it strikes was to write, which become `any`: stated for the idle core and for each command in flight. Power-on
is a reset at which the three buffers hold `any` as well. Nothing is said of `L`, `R`, `P`, `S` and `CUR`, which become `any`. -/
def Obligations.ResetEffect : Prop :=
  (∀ (s : State) (rest : List Event), s.events = .host .reset :: rest →
    ∃ t : State, step s = .next t ∧ t.busy = false ∧ t.sv = false ∧ t.result = 0x00 ∧ t.faultBits = 0 ∧
      t.keybuf = s.keybuf ∧ t.ibuf = s.ibuf ∧ t.events = rest ∧
      (s.busy = false → t.obuf = s.obuf) ∧
      (∀ n, s.busy = true → s.cur = .derive n → ∀ a, Memory.lookup t.obuf a = Memory.lookup s.obuf a) ∧
      (s.busy = true → s.cur = .encb ∨ s.cur = .decb → ∀ a,
        Memory.lookup t.obuf a = if a < 8 then none else Memory.lookup s.obuf a) ∧
      (∀ n, s.busy = true → s.cur = .ecbe n ∨ s.cur = .ecbd n → ∀ a,
        Memory.lookup t.obuf a = if a < n then none else Memory.lookup s.obuf a)) ∧
  (∀ (s : State) (rest : List Event), s.events = .powerOn :: rest →
    ∃ t : State, step s = .next t ∧ t.busy = false ∧ t.sv = false ∧ t.result = 0x00 ∧ t.faultBits = 0 ∧ t.events = rest ∧
      ∀ (b : Buffer) (a : Nat), Memory.lookup (t.buffer b) a = none)

/-- R34: what reset leaves in the state the host's interface starts from, for the elements R34 gives a value. No byte of any buffer holds
one. -/
def Obligations.ResetValues : Prop :=
  State.reset.busy = false ∧ State.reset.sv = false ∧ State.reset.result = 0x00 ∧ State.reset.faultBits = 0 ∧
    ∀ (b : Buffer) (a : Nat), Memory.lookup (State.reset.buffer b) a = none

/-! ## The whole machine -/

/-- The canonical form of a buffer, the model's own choice of how it lists bytes (log entry 3), is unique: two buffers in it that read alike
everywhere are the same list. -/
def Obligations.CanonicalFormUnique : Prop :=
  ∀ m m' : Memory, Memory.wf m → Memory.wf m' → (∀ a, Memory.lookup m a = Memory.lookup m' a) → m = m'

/-- The invariant of the machine holds at reset. -/
def Obligations.InvariantAtReset : Prop := State.Inv Config.standard State.reset

/-- Every step keeps the invariant, from every state that meets it: the buffers stay canonical and within their sizes, RESULT holds one of
the two codes (R29), and a command in flight has passed the issue checks, with `SV` = 0 exactly if it is a DERIVE (R136, R176). -/
def Obligations.StepKeepsInvariant : Prop :=
  ∀ s t : State, State.Inv Config.standard s → step s = .next t → State.Inv Config.standard t

/-- R7, R32: the same for the machine with any parameters that R7 allows, whatever its Initialization Constant and its sizes: the invariant holds
at reset, and from every state that meets it a step answers a next state, which meets it too. -/
def Obligations.EveryConfigurationKeepsInvariant : Prop :=
  ∀ cfg : Config, cfg.Valid → State.Inv cfg State.reset ∧
    ∀ s : State, State.Inv cfg s → ∃ t : State, stepIn cfg s = .next t ∧ State.Inv cfg t

/-- R137, R154: no step faults or is refused, from any state that meets the invariant: every completion step is a total function. -/
def Obligations.StepNeverStops : Prop :=
  ∀ s : State, State.Inv Config.standard s → ∃ t : State, step s = .next t

/-- R182: every accepted command completes and no execution hangs: from every state that meets the invariant, as many steps as there are
events, and one more for the core, reach a state with nothing left to do and no command in flight. That the core takes its step when the host
does nothing more is R182's fairness assumption as the model has it (log entry 2). -/
def Obligations.EveryRunReachesIdle : Prop :=
  ∀ s : State, State.Inv Config.standard s →
    ∃ t : State, core.run (s.events.length + 1) s = .next t ∧ t.events = [] ∧ t.busy = false

/-- R67, R182: the pseudo-line WAIT, in the machine with any parameters. While a command is in flight, however many turns the host takes, it is
still at the WAIT; after the core's turn the next read of STATUS shows `BUSY` = 0 and ends it. With the core idle the first read ends it. The
order of the turns is data of the model, and any order is allowed (log entry 12). -/
def Obligations.WaitEndsIdle : Prop :=
  ∀ (cfg : Config) (s : State) (rest : List HostTask) (result : List Byte), State.Inv cfg s →
    (s.busy = true → ∀ polls : Nat,
      (∃ t : ScriptRun,
        ScriptRun.run cfg (List.replicate polls .host) ⟨s, ScriptItem.wait.expand ++ rest, result⟩ = .next t ∧
        t.todo = ScriptItem.wait.expand ++ rest ∧ t.result = result ∧ t.machine.busy = true) ∧
      (∃ (t : ScriptRun) (w : Word),
        ScriptRun.run cfg (List.replicate polls .host ++ [.core, .host]) ⟨s, ScriptItem.wait.expand ++ rest, result⟩ = .next t ∧
        t.todo = rest ∧ t.result = result ∧ t.machine.busy = false ∧
        t.machine.reply = some (.word w) ∧ w.getLsbD 0 = false)) ∧
    (s.busy = false → ∃ (t : ScriptRun) (w : Word),
      ScriptRun.run cfg [.host] ⟨s, ScriptItem.wait.expand ++ rest, result⟩ = .next t ∧
      t.todo = rest ∧ t.result = result ∧ t.machine.busy = false ∧ t.machine.reply = some (.word w) ∧ w.getLsbD 0 = false)

/-- R66, R67: the pseudo-lines that move bytes, on an idle core with any parameters. `KEY` and `IN` write their bytes at the indices from 0 on;
the result of `OUT m` is the `m` bytes read from OBUF, in order; `COPYBACK m` leaves in IBUF the bytes that it read from OBUF. Each takes one turn
of the host for each line of its expansion, and nothing else changes but what the last action returned. -/
def Obligations.ScriptsMoveBytes : Prop :=
  ∀ (cfg : Config) (s : State), s.busy = false →
    (∀ bytes : List Byte, bytes.length ≤ cfg.keyMax → ∃ t : ScriptRun,
      ScriptRun.run cfg (List.replicate bytes.length .host) (ScriptRun.start [.key bytes] s) = .next t ∧ t.todo = [] ∧
      (∀ a, Memory.lookup t.machine.keybuf a = if a < bytes.length then bytes[a]? else Memory.lookup s.keybuf a) ∧
      t.machine = { s with keybuf := t.machine.keybuf, reply := t.machine.reply }) ∧
    (∀ bytes : List Byte, bytes.length ≤ cfg.bufMax → ∃ t : ScriptRun,
      ScriptRun.run cfg (List.replicate bytes.length .host) (ScriptRun.start [.input bytes] s) = .next t ∧ t.todo = [] ∧
      (∀ a, Memory.lookup t.machine.ibuf a = if a < bytes.length then bytes[a]? else Memory.lookup s.ibuf a) ∧
      t.machine = { s with ibuf := t.machine.ibuf, reply := t.machine.reply }) ∧
    (∀ m : Nat, m ≤ cfg.bufMax → (∀ k < m, (Memory.lookup s.obuf k).isSome = true) →
      (∃ t : ScriptRun,
        ScriptRun.run cfg (List.replicate m .host) (ScriptRun.start [.out m] s) = .next t ∧ t.todo = [] ∧
        t.result.length = m ∧ (∀ k < m, t.result[k]? = Memory.lookup s.obuf k) ∧
        t.machine = { s with reply := t.machine.reply }) ∧
      (∃ t : ScriptRun,
        ScriptRun.run cfg (List.replicate (2 * m) .host) (ScriptRun.start [.copyback m] s) = .next t ∧ t.todo = [] ∧
        (∀ a, Memory.lookup t.machine.ibuf a = if a < m then Memory.lookup s.obuf a else Memory.lookup s.ibuf a) ∧
        t.machine = { s with ibuf := t.machine.ibuf, reply := t.machine.reply }))

/-- R21: `SV` = 1 says that `(P, S)` is the finished result of a DERIVE and nothing has disturbed it since. It holds at reset and every step
keeps it. -/
def Obligations.ValidScheduleIsFinished : Prop :=
  State.SchedFinished Config.standard State.reset ∧
  ∀ s t : State, State.SchedFinished Config.standard s → step s = .next t → State.SchedFinished Config.standard t

/-- R20, R177: the only steps that change `P` or `S` are the completion of a DERIVE, a reset, and power-on. -/
def Obligations.ScheduleChangesOnlyByDeriveOrReset : Prop :=
  ∀ s t : State, step s = .next t → t.sched ≠ s.sched →
    (∃ n, s.busy = true ∧ s.cur = .derive n ∧ t.sv = true ∧ (s.events = [] ∨ s.events.head? = some .complete)) ∨
    s.events.head? = some (.host .reset) ∨ s.events.head? = some .powerOn

/-- R21: `SV` is cleared by reset and at the acceptance of a DERIVE, and set at the completion of a DERIVE, which is the core's turn with one in
flight; nothing else writes it. -/
def Obligations.SvWrittenOnlyByDeriveAndReset : Prop :=
  ∀ s t : State, step s = .next t → t.sv ≠ s.sv →
    (t.sv = true ∧ s.busy = true ∧ t.busy = false ∧ (∃ n, s.cur = .derive n) ∧
      (s.events = [] ∨ s.events.head? = some .complete)) ∨
    (t.sv = false ∧ s.busy = false ∧ t.busy = true ∧ ∃ n, t.cur = .derive n) ∨
    s.events.head? = some (.host .reset) ∨ s.events.head? = some .powerOn

/-- R30: a FAULT bit that is set stays set through every step but a reset and power-on. -/
def Obligations.FaultBitsAreSticky : Prop :=
  ∀ (s t : State) (j : Nat), step s = .next t → s.faultBits.getLsbD j = true →
    s.events.head? ≠ some (.host .reset) → s.events.head? ≠ some .powerOn → t.faultBits.getLsbD j = true

/-- R153: one step sets at most one FAULT bit. -/
def Obligations.AtMostOneFaultPerStep : Prop :=
  ∀ (s t : State) (i j : Nat), step s = .next t →
    s.faultBits.getLsbD i = false → t.faultBits.getLsbD i = true →
    s.faultBits.getLsbD j = false → t.faultBits.getLsbD j = true → i = j

/-- R152, R156: a step that sets a FAULT bit drops the action that caused it: nothing else of the architectural state changes. -/
def Obligations.FaultingActionIsDropped : Prop :=
  ∀ (s t : State) (j : Nat), step s = .next t → s.faultBits.getLsbD j = false → t.faultBits.getLsbD j = true →
    t = { s with faultBits := t.faultBits, events := t.events, reply := t.reply }

/-- R29: RESULT is written at the completion of a command and by reset, and by nothing else. -/
def Obligations.ResultWrittenOnlyAtCompletion : Prop :=
  ∀ s t : State, step s = .next t → t.result ≠ s.result →
    (s.busy = true ∧ t.busy = false) ∨ s.events.head? = some (.host .reset) ∨ s.events.head? = some .powerOn

/-- R22, R23: no command writes KEYBUF or IBUF: the only steps that change a byte of them are a byte write by the host while the core is
idle, and power-on. -/
def Obligations.InputsWrittenOnlyByIdleHost : Prop :=
  ∀ s t : State, step s = .next t → (t.keybuf ≠ s.keybuf ∨ t.ibuf ≠ s.ibuf) →
    s.events.head? = some .powerOn ∨
    (s.busy = false ∧ ((∃ b k v, s.events.head? = some (.host (.byteWrite b k v))) ∨ ∃ a v, s.events.head? = some (.bus (.writeByte a v))))

/-- R51(c), R54, R175: while a command is in flight no host action but a reset changes anything the command computes with, nor anything it has
computed: only FAULT, what the action returns, and the model's count of draws can change. -/
def Obligations.CommandInFlightIsUndisturbed : Prop :=
  ∀ (s : State) (e : Event) (rest : List Event), s.events = e :: rest → s.busy = true →
    e ≠ .complete → e ≠ .host .reset → e ≠ .powerOn →
    ∃ t : State, step s = .next t ∧
      t = { s with events := rest, faultBits := t.faultBits, reply := t.reply, draws := t.draws }

/-- R130, R135: a host action that is not a reset never touches `L`, `R`, `P`, `S`, OBUF or RESULT. -/
def Obligations.HostNeverTouchesCoreState : Prop :=
  ∀ (cfg : Config) (a : HostAction) (s : State), a ≠ .reset → State.HostFrame s (hostStep cfg a s)

/-- R20, R130: the host has no path to `L`, `R`, `P`, `S` and `CUR`. Two states that agree on everything else (and on the command while it is
in flight) still do after the same host action, and the action returns the same. -/
def Obligations.HostCannotSeeHiddenState : Prop :=
  ∀ (cfg : Config) (a : HostAction) (s t : State), s.hostSide = t.hostSide →
    (hostStep cfg a s).hostSide = (hostStep cfg a t).hostSide ∧ (hostStep cfg a s).reply = (hostStep cfg a t).reply

/-- R17, R34: the values that no rule fixes are never read before something defines them. Two states that meet the invariant and agree but for
`L` and `R`, the schedule while `SV` = 0, and `CUR` while `BUSY` = 0 step to two states that agree in the same way; so nothing rests on the
values the model names for them at reset (log entry 4). -/
def Obligations.UndefinedRegistersNeverRead : Prop :=
  ∀ s t : State, State.Inv Config.standard s → State.Inv Config.standard t → s.defined = t.defined →
    ∃ s' t' : State, step s = .next s' ∧ step t = .next t' ∧ s'.defined = t'.defined

/-- R7, R32: the default parameters meet the constraints the spec puts on them, and the machine of the host's interface is the machine of the
configured step relation at the defaults (log entry 9). -/
def Obligations.StandardConfigIsValid : Prop :=
  Config.standard.Valid ∧ Config.standard.keyMax = 72 ∧ Config.standard.bufMax = 4096 ∧
  (∀ (i : Instr) (s : State), exec i s = execIn Config.standard i s) ∧ ∀ s : State, step s = stepIn Config.standard s
end

