-- ==== Sys2Proof/Laws/State.lean ====
section
/-! SUPPORT. One lemma per field per update of the state, so that no proof unfolds a record update. -/

namespace Sys2Proof.Machine

variable (s : State)

/-! `State.setHalves` -/

@[simp] theorem State.setHalves_l (b : Block) : (s.setHalves b).l = b.l := rfl
@[simp] theorem State.setHalves_r (b : Block) : (s.setHalves b).r = b.r := rfl
@[simp] theorem State.setHalves_sched (b : Block) : (s.setHalves b).sched = s.sched := rfl
@[simp] theorem State.setHalves_sv (b : Block) : (s.setHalves b).sv = s.sv := rfl
@[simp] theorem State.setHalves_keybuf (b : Block) : (s.setHalves b).keybuf = s.keybuf := rfl
@[simp] theorem State.setHalves_ibuf (b : Block) : (s.setHalves b).ibuf = s.ibuf := rfl
@[simp] theorem State.setHalves_obuf (b : Block) : (s.setHalves b).obuf = s.obuf := rfl
@[simp] theorem State.setHalves_busy (b : Block) : (s.setHalves b).busy = s.busy := rfl
@[simp] theorem State.setHalves_cur (b : Block) : (s.setHalves b).cur = s.cur := rfl
@[simp] theorem State.setHalves_result (b : Block) : (s.setHalves b).result = s.result := rfl
@[simp] theorem State.setHalves_faultBits (b : Block) : (s.setHalves b).faultBits = s.faultBits := rfl
@[simp] theorem State.setHalves_draws (b : Block) : (s.setHalves b).draws = s.draws := rfl
@[simp] theorem State.setHalves_events (b : Block) : (s.setHalves b).events = s.events := rfl
@[simp] theorem State.setHalves_reply (b : Block) : (s.setHalves b).reply = s.reply := rfl

/-! `State.setSched` -/

@[simp] theorem State.setSched_l (k : KeySchedule) : (s.setSched k).l = s.l := rfl
@[simp] theorem State.setSched_r (k : KeySchedule) : (s.setSched k).r = s.r := rfl
@[simp] theorem State.setSched_sched (k : KeySchedule) : (s.setSched k).sched = k := rfl
@[simp] theorem State.setSched_sv (k : KeySchedule) : (s.setSched k).sv = s.sv := rfl
@[simp] theorem State.setSched_keybuf (k : KeySchedule) : (s.setSched k).keybuf = s.keybuf := rfl
@[simp] theorem State.setSched_ibuf (k : KeySchedule) : (s.setSched k).ibuf = s.ibuf := rfl
@[simp] theorem State.setSched_obuf (k : KeySchedule) : (s.setSched k).obuf = s.obuf := rfl
@[simp] theorem State.setSched_busy (k : KeySchedule) : (s.setSched k).busy = s.busy := rfl
@[simp] theorem State.setSched_cur (k : KeySchedule) : (s.setSched k).cur = s.cur := rfl
@[simp] theorem State.setSched_result (k : KeySchedule) : (s.setSched k).result = s.result := rfl
@[simp] theorem State.setSched_faultBits (k : KeySchedule) : (s.setSched k).faultBits = s.faultBits := rfl
@[simp] theorem State.setSched_draws (k : KeySchedule) : (s.setSched k).draws = s.draws := rfl
@[simp] theorem State.setSched_events (k : KeySchedule) : (s.setSched k).events = s.events := rfl
@[simp] theorem State.setSched_reply (k : KeySchedule) : (s.setSched k).reply = s.reply := rfl

/-! `State.setSv` -/

@[simp] theorem State.setSv_l (v : Bool) : (s.setSv v).l = s.l := rfl
@[simp] theorem State.setSv_r (v : Bool) : (s.setSv v).r = s.r := rfl
@[simp] theorem State.setSv_sched (v : Bool) : (s.setSv v).sched = s.sched := rfl
@[simp] theorem State.setSv_sv (v : Bool) : (s.setSv v).sv = v := rfl
@[simp] theorem State.setSv_keybuf (v : Bool) : (s.setSv v).keybuf = s.keybuf := rfl
@[simp] theorem State.setSv_ibuf (v : Bool) : (s.setSv v).ibuf = s.ibuf := rfl
@[simp] theorem State.setSv_obuf (v : Bool) : (s.setSv v).obuf = s.obuf := rfl
@[simp] theorem State.setSv_busy (v : Bool) : (s.setSv v).busy = s.busy := rfl
@[simp] theorem State.setSv_cur (v : Bool) : (s.setSv v).cur = s.cur := rfl
@[simp] theorem State.setSv_result (v : Bool) : (s.setSv v).result = s.result := rfl
@[simp] theorem State.setSv_faultBits (v : Bool) : (s.setSv v).faultBits = s.faultBits := rfl
@[simp] theorem State.setSv_draws (v : Bool) : (s.setSv v).draws = s.draws := rfl
@[simp] theorem State.setSv_events (v : Bool) : (s.setSv v).events = s.events := rfl
@[simp] theorem State.setSv_reply (v : Bool) : (s.setSv v).reply = s.reply := rfl

/-! `State.setKeybuf` -/

@[simp] theorem State.setKeybuf_l (m : Memory) : (s.setKeybuf m).l = s.l := rfl
@[simp] theorem State.setKeybuf_r (m : Memory) : (s.setKeybuf m).r = s.r := rfl
@[simp] theorem State.setKeybuf_sched (m : Memory) : (s.setKeybuf m).sched = s.sched := rfl
@[simp] theorem State.setKeybuf_sv (m : Memory) : (s.setKeybuf m).sv = s.sv := rfl
@[simp] theorem State.setKeybuf_keybuf (m : Memory) : (s.setKeybuf m).keybuf = m := rfl
@[simp] theorem State.setKeybuf_ibuf (m : Memory) : (s.setKeybuf m).ibuf = s.ibuf := rfl
@[simp] theorem State.setKeybuf_obuf (m : Memory) : (s.setKeybuf m).obuf = s.obuf := rfl
@[simp] theorem State.setKeybuf_busy (m : Memory) : (s.setKeybuf m).busy = s.busy := rfl
@[simp] theorem State.setKeybuf_cur (m : Memory) : (s.setKeybuf m).cur = s.cur := rfl
@[simp] theorem State.setKeybuf_result (m : Memory) : (s.setKeybuf m).result = s.result := rfl
@[simp] theorem State.setKeybuf_faultBits (m : Memory) : (s.setKeybuf m).faultBits = s.faultBits := rfl
@[simp] theorem State.setKeybuf_draws (m : Memory) : (s.setKeybuf m).draws = s.draws := rfl
@[simp] theorem State.setKeybuf_events (m : Memory) : (s.setKeybuf m).events = s.events := rfl
@[simp] theorem State.setKeybuf_reply (m : Memory) : (s.setKeybuf m).reply = s.reply := rfl

/-! `State.setIbuf` -/

@[simp] theorem State.setIbuf_l (m : Memory) : (s.setIbuf m).l = s.l := rfl
@[simp] theorem State.setIbuf_r (m : Memory) : (s.setIbuf m).r = s.r := rfl
@[simp] theorem State.setIbuf_sched (m : Memory) : (s.setIbuf m).sched = s.sched := rfl
@[simp] theorem State.setIbuf_sv (m : Memory) : (s.setIbuf m).sv = s.sv := rfl
@[simp] theorem State.setIbuf_keybuf (m : Memory) : (s.setIbuf m).keybuf = s.keybuf := rfl
@[simp] theorem State.setIbuf_ibuf (m : Memory) : (s.setIbuf m).ibuf = m := rfl
@[simp] theorem State.setIbuf_obuf (m : Memory) : (s.setIbuf m).obuf = s.obuf := rfl
@[simp] theorem State.setIbuf_busy (m : Memory) : (s.setIbuf m).busy = s.busy := rfl
@[simp] theorem State.setIbuf_cur (m : Memory) : (s.setIbuf m).cur = s.cur := rfl
@[simp] theorem State.setIbuf_result (m : Memory) : (s.setIbuf m).result = s.result := rfl
@[simp] theorem State.setIbuf_faultBits (m : Memory) : (s.setIbuf m).faultBits = s.faultBits := rfl
@[simp] theorem State.setIbuf_draws (m : Memory) : (s.setIbuf m).draws = s.draws := rfl
@[simp] theorem State.setIbuf_events (m : Memory) : (s.setIbuf m).events = s.events := rfl
@[simp] theorem State.setIbuf_reply (m : Memory) : (s.setIbuf m).reply = s.reply := rfl

/-! `State.setObuf` -/

@[simp] theorem State.setObuf_l (m : Memory) : (s.setObuf m).l = s.l := rfl
@[simp] theorem State.setObuf_r (m : Memory) : (s.setObuf m).r = s.r := rfl
@[simp] theorem State.setObuf_sched (m : Memory) : (s.setObuf m).sched = s.sched := rfl
@[simp] theorem State.setObuf_sv (m : Memory) : (s.setObuf m).sv = s.sv := rfl
@[simp] theorem State.setObuf_keybuf (m : Memory) : (s.setObuf m).keybuf = s.keybuf := rfl
@[simp] theorem State.setObuf_ibuf (m : Memory) : (s.setObuf m).ibuf = s.ibuf := rfl
@[simp] theorem State.setObuf_obuf (m : Memory) : (s.setObuf m).obuf = m := rfl
@[simp] theorem State.setObuf_busy (m : Memory) : (s.setObuf m).busy = s.busy := rfl
@[simp] theorem State.setObuf_cur (m : Memory) : (s.setObuf m).cur = s.cur := rfl
@[simp] theorem State.setObuf_result (m : Memory) : (s.setObuf m).result = s.result := rfl
@[simp] theorem State.setObuf_faultBits (m : Memory) : (s.setObuf m).faultBits = s.faultBits := rfl
@[simp] theorem State.setObuf_draws (m : Memory) : (s.setObuf m).draws = s.draws := rfl
@[simp] theorem State.setObuf_events (m : Memory) : (s.setObuf m).events = s.events := rfl
@[simp] theorem State.setObuf_reply (m : Memory) : (s.setObuf m).reply = s.reply := rfl

/-! `State.setBusy` -/

@[simp] theorem State.setBusy_l (v : Bool) : (s.setBusy v).l = s.l := rfl
@[simp] theorem State.setBusy_r (v : Bool) : (s.setBusy v).r = s.r := rfl
@[simp] theorem State.setBusy_sched (v : Bool) : (s.setBusy v).sched = s.sched := rfl
@[simp] theorem State.setBusy_sv (v : Bool) : (s.setBusy v).sv = s.sv := rfl
@[simp] theorem State.setBusy_keybuf (v : Bool) : (s.setBusy v).keybuf = s.keybuf := rfl
@[simp] theorem State.setBusy_ibuf (v : Bool) : (s.setBusy v).ibuf = s.ibuf := rfl
@[simp] theorem State.setBusy_obuf (v : Bool) : (s.setBusy v).obuf = s.obuf := rfl
@[simp] theorem State.setBusy_busy (v : Bool) : (s.setBusy v).busy = v := rfl
@[simp] theorem State.setBusy_cur (v : Bool) : (s.setBusy v).cur = s.cur := rfl
@[simp] theorem State.setBusy_result (v : Bool) : (s.setBusy v).result = s.result := rfl
@[simp] theorem State.setBusy_faultBits (v : Bool) : (s.setBusy v).faultBits = s.faultBits := rfl
@[simp] theorem State.setBusy_draws (v : Bool) : (s.setBusy v).draws = s.draws := rfl
@[simp] theorem State.setBusy_events (v : Bool) : (s.setBusy v).events = s.events := rfl
@[simp] theorem State.setBusy_reply (v : Bool) : (s.setBusy v).reply = s.reply := rfl

/-! `State.setCur` -/

@[simp] theorem State.setCur_l (i : Instr) : (s.setCur i).l = s.l := rfl
@[simp] theorem State.setCur_r (i : Instr) : (s.setCur i).r = s.r := rfl
@[simp] theorem State.setCur_sched (i : Instr) : (s.setCur i).sched = s.sched := rfl
@[simp] theorem State.setCur_sv (i : Instr) : (s.setCur i).sv = s.sv := rfl
@[simp] theorem State.setCur_keybuf (i : Instr) : (s.setCur i).keybuf = s.keybuf := rfl
@[simp] theorem State.setCur_ibuf (i : Instr) : (s.setCur i).ibuf = s.ibuf := rfl
@[simp] theorem State.setCur_obuf (i : Instr) : (s.setCur i).obuf = s.obuf := rfl
@[simp] theorem State.setCur_busy (i : Instr) : (s.setCur i).busy = s.busy := rfl
@[simp] theorem State.setCur_cur (i : Instr) : (s.setCur i).cur = i := rfl
@[simp] theorem State.setCur_result (i : Instr) : (s.setCur i).result = s.result := rfl
@[simp] theorem State.setCur_faultBits (i : Instr) : (s.setCur i).faultBits = s.faultBits := rfl
@[simp] theorem State.setCur_draws (i : Instr) : (s.setCur i).draws = s.draws := rfl
@[simp] theorem State.setCur_events (i : Instr) : (s.setCur i).events = s.events := rfl
@[simp] theorem State.setCur_reply (i : Instr) : (s.setCur i).reply = s.reply := rfl

/-! `State.setResult` -/

@[simp] theorem State.setResult_l (c : Byte) : (s.setResult c).l = s.l := rfl
@[simp] theorem State.setResult_r (c : Byte) : (s.setResult c).r = s.r := rfl
@[simp] theorem State.setResult_sched (c : Byte) : (s.setResult c).sched = s.sched := rfl
@[simp] theorem State.setResult_sv (c : Byte) : (s.setResult c).sv = s.sv := rfl
@[simp] theorem State.setResult_keybuf (c : Byte) : (s.setResult c).keybuf = s.keybuf := rfl
@[simp] theorem State.setResult_ibuf (c : Byte) : (s.setResult c).ibuf = s.ibuf := rfl
@[simp] theorem State.setResult_obuf (c : Byte) : (s.setResult c).obuf = s.obuf := rfl
@[simp] theorem State.setResult_busy (c : Byte) : (s.setResult c).busy = s.busy := rfl
@[simp] theorem State.setResult_cur (c : Byte) : (s.setResult c).cur = s.cur := rfl
@[simp] theorem State.setResult_result (c : Byte) : (s.setResult c).result = c := rfl
@[simp] theorem State.setResult_faultBits (c : Byte) : (s.setResult c).faultBits = s.faultBits := rfl
@[simp] theorem State.setResult_draws (c : Byte) : (s.setResult c).draws = s.draws := rfl
@[simp] theorem State.setResult_events (c : Byte) : (s.setResult c).events = s.events := rfl
@[simp] theorem State.setResult_reply (c : Byte) : (s.setResult c).reply = s.reply := rfl

/-! `State.setFaultBits` -/

@[simp] theorem State.setFaultBits_l (f : BitVec 5) : (s.setFaultBits f).l = s.l := rfl
@[simp] theorem State.setFaultBits_r (f : BitVec 5) : (s.setFaultBits f).r = s.r := rfl
@[simp] theorem State.setFaultBits_sched (f : BitVec 5) : (s.setFaultBits f).sched = s.sched := rfl
@[simp] theorem State.setFaultBits_sv (f : BitVec 5) : (s.setFaultBits f).sv = s.sv := rfl
@[simp] theorem State.setFaultBits_keybuf (f : BitVec 5) : (s.setFaultBits f).keybuf = s.keybuf := rfl
@[simp] theorem State.setFaultBits_ibuf (f : BitVec 5) : (s.setFaultBits f).ibuf = s.ibuf := rfl
@[simp] theorem State.setFaultBits_obuf (f : BitVec 5) : (s.setFaultBits f).obuf = s.obuf := rfl
@[simp] theorem State.setFaultBits_busy (f : BitVec 5) : (s.setFaultBits f).busy = s.busy := rfl
@[simp] theorem State.setFaultBits_cur (f : BitVec 5) : (s.setFaultBits f).cur = s.cur := rfl
@[simp] theorem State.setFaultBits_result (f : BitVec 5) : (s.setFaultBits f).result = s.result := rfl
@[simp] theorem State.setFaultBits_faultBits (f : BitVec 5) : (s.setFaultBits f).faultBits = f := rfl
@[simp] theorem State.setFaultBits_draws (f : BitVec 5) : (s.setFaultBits f).draws = s.draws := rfl
@[simp] theorem State.setFaultBits_events (f : BitVec 5) : (s.setFaultBits f).events = s.events := rfl
@[simp] theorem State.setFaultBits_reply (f : BitVec 5) : (s.setFaultBits f).reply = s.reply := rfl

/-! `State.advance` -/

@[simp] theorem State.advance_l (k : Nat) : (s.advance k).l = s.l := rfl
@[simp] theorem State.advance_r (k : Nat) : (s.advance k).r = s.r := rfl
@[simp] theorem State.advance_sched (k : Nat) : (s.advance k).sched = s.sched := rfl
@[simp] theorem State.advance_sv (k : Nat) : (s.advance k).sv = s.sv := rfl
@[simp] theorem State.advance_keybuf (k : Nat) : (s.advance k).keybuf = s.keybuf := rfl
@[simp] theorem State.advance_ibuf (k : Nat) : (s.advance k).ibuf = s.ibuf := rfl
@[simp] theorem State.advance_obuf (k : Nat) : (s.advance k).obuf = s.obuf := rfl
@[simp] theorem State.advance_busy (k : Nat) : (s.advance k).busy = s.busy := rfl
@[simp] theorem State.advance_cur (k : Nat) : (s.advance k).cur = s.cur := rfl
@[simp] theorem State.advance_result (k : Nat) : (s.advance k).result = s.result := rfl
@[simp] theorem State.advance_faultBits (k : Nat) : (s.advance k).faultBits = s.faultBits := rfl
@[simp] theorem State.advance_draws (k : Nat) : (s.advance k).draws = s.draws + k := rfl
@[simp] theorem State.advance_events (k : Nat) : (s.advance k).events = s.events := rfl
@[simp] theorem State.advance_reply (k : Nat) : (s.advance k).reply = s.reply := rfl

/-! `State.setEvents` -/

@[simp] theorem State.setEvents_l (es : List Event) : (s.setEvents es).l = s.l := rfl
@[simp] theorem State.setEvents_r (es : List Event) : (s.setEvents es).r = s.r := rfl
@[simp] theorem State.setEvents_sched (es : List Event) : (s.setEvents es).sched = s.sched := rfl
@[simp] theorem State.setEvents_sv (es : List Event) : (s.setEvents es).sv = s.sv := rfl
@[simp] theorem State.setEvents_keybuf (es : List Event) : (s.setEvents es).keybuf = s.keybuf := rfl
@[simp] theorem State.setEvents_ibuf (es : List Event) : (s.setEvents es).ibuf = s.ibuf := rfl
@[simp] theorem State.setEvents_obuf (es : List Event) : (s.setEvents es).obuf = s.obuf := rfl
@[simp] theorem State.setEvents_busy (es : List Event) : (s.setEvents es).busy = s.busy := rfl
@[simp] theorem State.setEvents_cur (es : List Event) : (s.setEvents es).cur = s.cur := rfl
@[simp] theorem State.setEvents_result (es : List Event) : (s.setEvents es).result = s.result := rfl
@[simp] theorem State.setEvents_faultBits (es : List Event) : (s.setEvents es).faultBits = s.faultBits := rfl
@[simp] theorem State.setEvents_draws (es : List Event) : (s.setEvents es).draws = s.draws := rfl
@[simp] theorem State.setEvents_events (es : List Event) : (s.setEvents es).events = es := rfl
@[simp] theorem State.setEvents_reply (es : List Event) : (s.setEvents es).reply = s.reply := rfl

/-! `State.setReply` -/

@[simp] theorem State.setReply_l (v : Option Reply) : (s.setReply v).l = s.l := rfl
@[simp] theorem State.setReply_r (v : Option Reply) : (s.setReply v).r = s.r := rfl
@[simp] theorem State.setReply_sched (v : Option Reply) : (s.setReply v).sched = s.sched := rfl
@[simp] theorem State.setReply_sv (v : Option Reply) : (s.setReply v).sv = s.sv := rfl
@[simp] theorem State.setReply_keybuf (v : Option Reply) : (s.setReply v).keybuf = s.keybuf := rfl
@[simp] theorem State.setReply_ibuf (v : Option Reply) : (s.setReply v).ibuf = s.ibuf := rfl
@[simp] theorem State.setReply_obuf (v : Option Reply) : (s.setReply v).obuf = s.obuf := rfl
@[simp] theorem State.setReply_busy (v : Option Reply) : (s.setReply v).busy = s.busy := rfl
@[simp] theorem State.setReply_cur (v : Option Reply) : (s.setReply v).cur = s.cur := rfl
@[simp] theorem State.setReply_result (v : Option Reply) : (s.setReply v).result = s.result := rfl
@[simp] theorem State.setReply_faultBits (v : Option Reply) : (s.setReply v).faultBits = s.faultBits := rfl
@[simp] theorem State.setReply_draws (v : Option Reply) : (s.setReply v).draws = s.draws := rfl
@[simp] theorem State.setReply_events (v : Option Reply) : (s.setReply v).events = s.events := rfl
@[simp] theorem State.setReply_reply (v : Option Reply) : (s.setReply v).reply = v := rfl

end Sys2Proof.Machine
end

