-- ==== Sys2Proof/Laws/Memory.lean ====
section
/-! SUPPORT. The laws of the byte buffers: a read after a write, and that every memory operation keeps the canonical form. -/

namespace Sys2Proof.Machine

theorem Memory.lookup_nil (a : Nat) : Memory.lookup [] a = none := rfl

theorem Memory.lookup_cons (k : Nat) (v : Byte) (rest : Memory) (a : Nat) :
    Memory.lookup ((k, v) :: rest) a = if a = k then some v else Memory.lookup rest a := rfl

/-- The byte just written is the byte read. -/
theorem Memory.lookup_write_same (m : Memory) (a : Nat) (b : Byte) :
    Memory.lookup (Memory.write m a b) a = some b := by
  induction m with
  | nil => simp [Memory.write, Memory.lookup]
  | cons c rest ih =>
    obtain ⟨k, v⟩ := c
    simp only [Memory.write]
    split
    · simp [Memory.lookup]
    · split
      · simp [Memory.lookup]
      · next h => simp [Memory.lookup, h, ih]

/-- A write leaves every other place alone. -/
theorem Memory.lookup_write_other (m : Memory) {a c : Nat} (b : Byte) (h : c ≠ a) :
    Memory.lookup (Memory.write m a b) c = Memory.lookup m c := by
  induction m with
  | nil => simp [Memory.write, Memory.lookup, h]
  | cons e rest ih =>
    obtain ⟨k, v⟩ := e
    simp only [Memory.write]
    split
    · simp [Memory.lookup, h]
    · split
      · next heq => subst heq; simp [Memory.lookup, h]
      · simp [Memory.lookup, ih]

theorem Memory.lookup_write (m : Memory) (a c : Nat) (b : Byte) :
    Memory.lookup (Memory.write m a b) c = if c = a then some b else Memory.lookup m c := by
  split
  · next h => rw [h, Memory.lookup_write_same]
  · next h => exact Memory.lookup_write_other m b h

/-- The cells after a write are the cell written and cells that were there. -/
theorem Memory.mem_write {m : Memory} {a : Nat} {b : Byte} {c : Host.Cell} (h : c ∈ Memory.write m a b) :
    c = (a, b) ∨ c ∈ m := by
  induction m with
  | nil => simpa [Memory.write] using h
  | cons e rest ih =>
    obtain ⟨k, v⟩ := e
    simp only [Memory.write] at h
    split at h
    · simpa using h
    · split at h
      · rcases List.mem_cons.1 h with h | h
        · exact .inl h
        · exact .inr (List.mem_cons_of_mem _ h)
      · rcases List.mem_cons.1 h with h | h
        · exact .inr (h ▸ List.mem_cons_self)
        · exact (ih h).imp_right (List.mem_cons_of_mem _)

/-- A write keeps the canonical form. -/
theorem Memory.write_wf {m : Memory} (a : Nat) (b : Byte) (h : Memory.wf m) : Memory.wf (Memory.write m a b) := by
  induction m with
  | nil => simp [Memory.write, Memory.wf]
  | cons e rest ih =>
    obtain ⟨k, v⟩ := e
    obtain ⟨hk, hrest⟩ := List.pairwise_cons.1 h
    simp only [Memory.write]
    split
    · next hlt =>
      refine List.pairwise_cons.2 ⟨fun c hc => ?_, h⟩
      rcases List.mem_cons.1 hc with rfl | hc
      · exact hlt
      · exact Nat.lt_trans hlt (hk c hc)
    · next hlt =>
      split
      · next heq => subst heq; exact List.pairwise_cons.2 ⟨hk, hrest⟩
      · next hne =>
        refine List.pairwise_cons.2 ⟨fun c hc => ?_, ih hrest⟩
        rcases Memory.mem_write hc with rfl | hc
        · show k < a; omega
        · exact hk c hc

/-- A write inside a buffer keeps the buffer in good order. -/
theorem Memory.write_good {m : Memory} {size a : Nat} (b : Byte) (h : Memory.Good m size) (ha : a < size) :
    Memory.Good (Memory.write m a b) size :=
  ⟨Memory.write_wf a b h.1, fun c hc => by
    rcases Memory.mem_write hc with rfl | hc
    · exact ha
    · exact h.2 c hc⟩

theorem Memory.nil_good (size : Nat) : Memory.Good [] size := by simp [Memory.Good, Memory.wf, Memory.Within]

/-- Forgetting bytes keeps the buffer in good order. -/
theorem Memory.forget_good {m : Memory} {size : Nat} (n : Nat) (h : Memory.Good m size) :
    Memory.Good (Memory.forget m n) size :=
  ⟨h.1.filter _, fun c hc => h.2 c (List.mem_filter.1 hc).1⟩

/-- Forgotten bytes hold `any`, the others what they held. -/
theorem Memory.lookup_forget (m : Memory) (n a : Nat) :
    Memory.lookup (Memory.forget m n) a = if a < n then none else Memory.lookup m a := by
  induction m with
  | nil => simp [Memory.forget, Memory.lookup, Memory.unlisted]
  | cons e rest ih =>
    obtain ⟨k, v⟩ := e
    simp only [Memory.forget, List.filter_cons] at ih ⊢
    by_cases hk : n ≤ k
    · simp only [hk, decide_true, if_true, Memory.lookup_cons, ih]
      by_cases hak : a = k
      · have : ¬a < n := by omega
        simp [hak, Nat.not_lt.2 hk]
      · simp [hak]
    · simp only [hk, decide_false, Memory.lookup_cons]
      by_cases hak : a = k
      · have : a < n := by omega
        simpa [this] using ih
      · simpa [hak] using ih

/-- Reading a byte that something has written. -/
theorem Memory.readOr_of_lookup {m : Memory} {a : Nat} {b : Byte} (free : Byte) (h : Memory.lookup m a = some b) :
    Memory.readOr m a free = b := by simp [Memory.readOr, h]

/-- A run of writes at the places `f k` leaves every place outside them alone. -/
theorem Memory.lookup_foldl_write_other {α : Type} (ks : List α) (f : α → Nat) (v : α → Byte) (m : Memory) {c : Nat}
    (h : ∀ k ∈ ks, c ≠ f k) :
    Memory.lookup (ks.foldl (fun m k => Memory.write m (f k) (v k)) m) c = Memory.lookup m c := by
  induction ks generalizing m with
  | nil => rfl
  | cons k ks ih =>
    rw [List.foldl_cons, ih _ (fun j hj => h j (List.mem_cons_of_mem _ hj)),
      Memory.lookup_write_other _ _ (h k List.mem_cons_self)]

/-- A run of writes inside a buffer keeps it in good order. -/
theorem Memory.foldl_write_good {α : Type} (ks : List α) (f : α → Nat) (v : α → Byte) {m : Memory} {size : Nat}
    (hm : Memory.Good m size) (h : ∀ k ∈ ks, f k < size) :
    Memory.Good (ks.foldl (fun m k => Memory.write m (f k) (v k)) m) size := by
  induction ks generalizing m with
  | nil => exact hm
  | cons k ks ih =>
    exact ih (Memory.write_good _ hm (h k List.mem_cons_self)) (fun j hj => h j (List.mem_cons_of_mem _ hj))

end Sys2Proof.Machine
end

