-- ==== Sys2Proof/Laws/Block.lean ====
section
/-! SUPPORT. Bytes and blocks (R13, R43) and the one operation that transforms a block (R100, R110): what it does to every field. -/

namespace Sys2Proof.Machine

/-! ## Words and bytes -/

/-- Four bytes cut from a word, put back together, are the word (R43). -/
theorem be32_of_slices (w : Word) :
    be32 (w.extractLsb' 24 8) (w.extractLsb' 16 8) (w.extractLsb' 8 8) (w.extractLsb' 0 8) = w := by
  unfold be32
  ext i hi
  simp only [BitVec.getElem_append, BitVec.getElem_extractLsb']
  grind

/-- The bytes of a word put together from four bytes (R13). -/
theorem be32_slice0 (a b c d : Byte) : (be32 a b c d).extractLsb' 24 8 = a := by
  unfold be32; ext i hi; simp; grind

theorem be32_slice1 (a b c d : Byte) : (be32 a b c d).extractLsb' 16 8 = b := by
  unfold be32; ext i hi; simp; grind

theorem be32_slice2 (a b c d : Byte) : (be32 a b c d).extractLsb' 8 8 = c := by
  unfold be32; ext i hi; simp; grind

theorem be32_slice3 (a b c d : Byte) : (be32 a b c d).extractLsb' 0 8 = d := by
  unfold be32; ext i hi; simp; grind

/-- `MemRead` of four bytes packs them most significant first (R13). -/
theorem memRead_four (m : Memory) (a : Nat) (free : Nat → Byte) :
    memRead m a free 4 = be32 (Memory.readOr m a (free 0)) (Memory.readOr m (a + 1) (free 1))
      (Memory.readOr m (a + 2) (free 2)) (Memory.readOr m (a + 3) (free 3)) := by
  simp only [memRead, be32]
  generalize Memory.readOr m (a + 0) (free 0) = b0
  generalize Memory.readOr m (a + 1) (free 1) = b1
  generalize Memory.readOr m (a + 2) (free 2) = b2
  generalize Memory.readOr m (a + 3) (free 3) = b3
  ext i hi
  simp only [BitVec.getElem_append]
  grind

/-- `MemWrite` of four bytes stores them most significant first (R13). -/
theorem memWrite_four (m : Memory) (a : Nat) (w : Word) :
    memWrite m a 4 w = Memory.write (Memory.write (Memory.write (Memory.write m a (w.extractLsb' 24 8))
      (a + 1) (w.extractLsb' 16 8)) (a + 2) (w.extractLsb' 8 8)) (a + 3) (w.extractLsb' 0 8) := rfl

/-! ## Blocks in buffers -/

/-- The bytes of a stored block are those of the block, and every other byte is as it was (R43). -/
theorem lookup_storeBlock (m : Memory) (a : Nat) (b : Block) (c : Nat) :
    Memory.lookup (storeBlock m a b) c =
      if a ≤ c ∧ c < a + 8 then (Block.bytes b)[c - a]? else Memory.lookup m c := by
  unfold storeBlock
  simp only [memWrite_four, Memory.lookup_write]
  by_cases h : a ≤ c ∧ c < a + 8
  · obtain ⟨h1, h2⟩ := h
    obtain ⟨j, rfl⟩ := Nat.exists_eq_add_of_le h1
    have hj : j < 8 := by omega
    rw [if_pos (show a ≤ a + j ∧ a + j < a + 8 by omega), Nat.add_sub_cancel_left]
    interval_cases j <;> simp [Block.bytes, Nat.add_assoc]
  · rw [if_neg h]
    repeat rw [if_neg (by omega)]

/-- A block just stored is the block the buffer holds there. -/
theorem storeBlock_holds (m : Memory) (a : Nat) (b : Block) : Memory.HoldsBlock (storeBlock m a b) a b := by
  intro j hj
  rw [lookup_storeBlock, if_pos (by omega), Nat.add_sub_cancel_left]

/-- A block stored elsewhere leaves the block a buffer holds alone. -/
theorem storeBlock_holds_other {m : Memory} {a c : Nat} {b : Block} (d : Block) (h : c + 8 ≤ a ∨ a + 8 ≤ c)
    (hb : Memory.HoldsBlock m c b) : Memory.HoldsBlock (storeBlock m a d) c b := by
  intro j hj
  rw [lookup_storeBlock, if_neg (by omega)]
  exact hb j hj

/-- Storing a block inside a buffer keeps the buffer in good order. -/
theorem storeBlock_good {m : Memory} {size a : Nat} (b : Block) (h : Memory.Good m size) (ha : a + 8 ≤ size) :
    Memory.Good (storeBlock m a b) size := by
  unfold storeBlock
  simp only [memWrite_four]
  refine Memory.write_good _ (Memory.write_good _ (Memory.write_good _ (Memory.write_good _ (Memory.write_good _
    (Memory.write_good _ (Memory.write_good _ (Memory.write_good _ h ?_) ?_) ?_) ?_) ?_) ?_) ?_) ?_ <;> omega

/-- Where `IBUF` holds a block, that block is loaded, whatever the free values are (R43). -/
theorem loadBlock_of_holds {s : State} {a : Nat} {b : Block} (h : Memory.HoldsBlock s.ibuf a b) : loadBlock s a = b := by
  have hb : ∀ j (hj : j < 8) free, Memory.readOr s.ibuf (a + j) free = (Block.bytes b)[j]'(by simpa [Block.bytes] using hj) := by
    intro j hj free
    exact Memory.readOr_of_lookup free (by rw [h j hj]; exact List.getElem?_eq_getElem _)
  have h0 := hb 0 (by omega); have h1 := hb 1 (by omega); have h2 := hb 2 (by omega); have h3 := hb 3 (by omega)
  have h4 := hb 4 (by omega); have h5 := hb 5 (by omega); have h6 := hb 6 (by omega); have h7 := hb 7 (by omega)
  simp only [Nat.add_zero] at h0
  simp only [loadBlock, memRead_four, Nat.add_assoc, Nat.reduceAdd, h0, h1, h2, h3, h4, h5, h6, h7]
  simp only [Block.bytes, List.getElem_cons_zero, List.getElem_cons_succ, be32_of_slices]

/-- Eight bytes that have been written are the bytes of one block. -/
theorem exists_holdsBlock {m : Memory} {a : Nat} (h : ∀ j < 8, (Memory.lookup m (a + j)).isSome = true) :
    ∃ b : Block, Memory.HoldsBlock m a b := by
  have hv : ∀ j < 8, ∃ v, Memory.lookup m (a + j) = some v := fun j hj => Option.isSome_iff_exists.1 (h j hj)
  obtain ⟨v0, h0⟩ := hv 0 (by omega); obtain ⟨v1, h1⟩ := hv 1 (by omega); obtain ⟨v2, h2⟩ := hv 2 (by omega)
  obtain ⟨v3, h3⟩ := hv 3 (by omega); obtain ⟨v4, h4⟩ := hv 4 (by omega); obtain ⟨v5, h5⟩ := hv 5 (by omega)
  obtain ⟨v6, h6⟩ := hv 6 (by omega); obtain ⟨v7, h7⟩ := hv 7 (by omega)
  refine ⟨⟨be32 v0 v1 v2 v3, be32 v4 v5 v6 v7⟩, fun j hj => ?_⟩
  simp only [Block.bytes, be32_slice0, be32_slice1, be32_slice2, be32_slice3]
  interval_cases j <;> first | exact h0 | exact h1 | exact h2 | exact h3 | exact h4 | exact h5 | exact h6 | exact h7

/-- A block is known by its eight bytes. -/
theorem Block.eq_of_bytes {b c : Block} (h : Block.bytes b = Block.bytes c) : b = c := by
  obtain ⟨l, r⟩ := b
  obtain ⟨l', r'⟩ := c
  simp only [Block.bytes, List.cons.injEq, and_true] at h
  obtain ⟨h0, h1, h2, h3, h4, h5, h6, h7⟩ := h
  rw [← be32_of_slices l, ← be32_of_slices r, h0, h1, h2, h3, h4, h5, h6, h7, be32_of_slices, be32_of_slices]

/-- A buffer holds at most one block at an index. -/
theorem Memory.HoldsBlock.unique {m : Memory} {a : Nat} {b c : Block} (hb : Memory.HoldsBlock m a b)
    (hc : Memory.HoldsBlock m a c) : b = c :=
  Block.eq_of_bytes (List.ext_getElem? fun j => by
    by_cases hj : j < 8
    · rw [← hb j hj, hc j hj]
    · have hlen : ∀ d : Block, (Block.bytes d).length = 8 := fun _ => rfl
      rw [List.getElem?_eq_none (by rw [hlen]; omega), List.getElem?_eq_none (by rw [hlen]; omega)])

/-- A buffer that reads alike over eight bytes holds the same block. -/
theorem Memory.HoldsBlock.congr {m m' : Memory} {a a' : Nat} {b : Block} (hb : Memory.HoldsBlock m a b)
    (h : ∀ j < 8, Memory.lookup m' (a' + j) = Memory.lookup m (a + j)) : Memory.HoldsBlock m' a' b :=
  fun j hj => (h j hj).trans (hb j hj)

/-! ## One block transformed -/

section
variable (t : KeySchedule → Block → Block) (a : Nat) (s : State)

@[simp] theorem transformBlock_l : (transformBlock t a s).l = (t s.sched (loadBlock s a)).l := rfl
@[simp] theorem transformBlock_r : (transformBlock t a s).r = (t s.sched (loadBlock s a)).r := rfl
@[simp] theorem transformBlock_sched : (transformBlock t a s).sched = s.sched := rfl
@[simp] theorem transformBlock_sv : (transformBlock t a s).sv = s.sv := rfl
@[simp] theorem transformBlock_keybuf : (transformBlock t a s).keybuf = s.keybuf := rfl
@[simp] theorem transformBlock_ibuf : (transformBlock t a s).ibuf = s.ibuf := rfl
@[simp] theorem transformBlock_obuf :
    (transformBlock t a s).obuf = storeBlock s.obuf a (t s.sched (loadBlock s a)) := rfl
@[simp] theorem transformBlock_busy : (transformBlock t a s).busy = s.busy := rfl
@[simp] theorem transformBlock_cur : (transformBlock t a s).cur = s.cur := rfl
@[simp] theorem transformBlock_result : (transformBlock t a s).result = s.result := rfl
@[simp] theorem transformBlock_faultBits : (transformBlock t a s).faultBits = s.faultBits := rfl
@[simp] theorem transformBlock_draws : (transformBlock t a s).draws = s.draws + 8 := rfl
@[simp] theorem transformBlock_events : (transformBlock t a s).events = s.events := rfl
@[simp] theorem transformBlock_reply : (transformBlock t a s).reply = s.reply := rfl

end

end Sys2Proof.Machine
end

