-- ==== Sys2Proof/Laws/Commands.lean ====
section
/-! SUPPORT. What the five completion steps do, once for each (R80, R100, R101, R112, R113), and everything `exec` can answer. -/

namespace Sys2Proof.Machine

/-! ## The loop of the ECB driver -/

/-- What the loop over the blocks of `IBUF` keeps, whatever the transform (R110): everything but `L`, `R`, OBUF and the count of
draws. -/
structure EcbKept (s u : State) : Prop where
  sched : u.sched = s.sched
  sv : u.sv = s.sv
  keybuf : u.keybuf = s.keybuf
  ibuf : u.ibuf = s.ibuf
  busy : u.busy = s.busy
  cur : u.cur = s.cur
  result : u.result = s.result
  faultBits : u.faultBits = s.faultBits
  events : u.events = s.events
  reply : u.reply = s.reply

theorem EcbKept.refl (s : State) : EcbKept s s := by constructor <;> rfl

theorem EcbKept.step {s u : State} (t : KeySchedule → Block → Block) (a : Nat) (h : EcbKept s u) :
    EcbKept s (transformBlock t a u) := by
  constructor <;> simp [h.sched, h.sv, h.keybuf, h.ibuf, h.busy, h.cur, h.result, h.faultBits, h.events, h.reply]

/-- The loop over one block more is the loop, then that block. -/
theorem ecbLoop_blocks_succ (t : KeySchedule → Block → Block) (q : Nat) (s : State) :
    ecbLoop t (8 * (q + 1)) s = transformBlock t (8 * q) (ecbLoop t (8 * q) s) := by
  simp only [ecbLoop, Nat.mul_div_cancel_left _ (show 0 < 8 by omega), List.range_succ, List.foldl_append,
    List.foldl_cons, List.foldl_nil]

theorem ecbLoop_zero (t : KeySchedule → Block → Block) (s : State) : ecbLoop t 0 s = s := rfl

theorem ecbLoop_kept (t : KeySchedule → Block → Block) (q : Nat) (s : State) : EcbKept s (ecbLoop t (8 * q) s) := by
  induction q with
  | zero => exact EcbKept.refl s
  | succ q ih => rw [ecbLoop_blocks_succ]; exact ih.step t _

/-- The loop leaves every byte of OBUF past the blocks alone (R112). -/
theorem ecbLoop_obuf_beyond (t : KeySchedule → Block → Block) (q : Nat) (s : State) {a : Nat} (h : 8 * q ≤ a) :
    Memory.lookup (ecbLoop t (8 * q) s).obuf a = Memory.lookup s.obuf a := by
  induction q with
  | zero => rfl
  | succ q ih =>
    rw [ecbLoop_blocks_succ, transformBlock_obuf, lookup_storeBlock, if_neg (by omega), ih (by omega)]

/-- Each block of the output is the transform of its block of the input, where that has been written (R110). -/
theorem ecbLoop_holds (t : KeySchedule → Block → Block) (q : Nat) (s : State) {p : Nat} {b : Block} (hp : p < q)
    (hb : Memory.HoldsBlock s.ibuf (8 * p) b) : Memory.HoldsBlock (ecbLoop t (8 * q) s).obuf (8 * p) (t s.sched b) := by
  induction q with
  | zero => omega
  | succ q ih =>
    have kept := ecbLoop_kept t q s
    rw [ecbLoop_blocks_succ, transformBlock_obuf]
    rcases Nat.lt_succ_iff_lt_or_eq.1 hp with h | rfl
    · exact storeBlock_holds_other _ (by omega) (ih h)
    · have hl : loadBlock (ecbLoop t (8 * p) s) (8 * p) = b := loadBlock_of_holds (kept.ibuf ▸ hb)
      rw [hl, kept.sched]
      exact storeBlock_holds _ _ _

/-- After the loop `(L, R)` are those of its last block (R110). -/
theorem ecbLoop_last (t : KeySchedule → Block → Block) (q : Nat) (s : State) {b : Block}
    (hb : Memory.HoldsBlock s.ibuf (8 * q) b) :
    (ecbLoop t (8 * (q + 1)) s).l = (t s.sched b).l ∧ (ecbLoop t (8 * (q + 1)) s).r = (t s.sched b).r := by
  have kept := ecbLoop_kept t q s
  have hl : loadBlock (ecbLoop t (8 * q) s) (8 * q) = b := loadBlock_of_holds (kept.ibuf ▸ hb)
  rw [ecbLoop_blocks_succ, transformBlock_l, transformBlock_r, hl, kept.sched]
  exact ⟨rfl, rfl⟩

/-- The loop keeps OBUF in good order. -/
theorem ecbLoop_good (t : KeySchedule → Block → Block) (q : Nat) (s : State) {size : Nat}
    (h : Memory.Good s.obuf size) (hq : 8 * q ≤ size) : Memory.Good (ecbLoop t (8 * q) s).obuf size := by
  induction q with
  | zero => exact h
  | succ q ih =>
    rw [ecbLoop_blocks_succ, transformBlock_obuf]
    exact storeBlock_good _ (ih (by omega)) (by omega)

/-! ## DERIVE -/

section
variable (cfg : Config) (n : Nat) (s : State)

@[simp] theorem deriveEffect_l : (deriveEffect cfg n s).l = (buildSchedule cfg.init (keyStream s n)).run.l := by simp [deriveEffect, State.finish]
@[simp] theorem deriveEffect_r : (deriveEffect cfg n s).r = (buildSchedule cfg.init (keyStream s n)).run.r := by simp [deriveEffect, State.finish]
@[simp] theorem deriveEffect_sched : (deriveEffect cfg n s).sched = (buildSchedule cfg.init (keyStream s n)).sched := by simp [deriveEffect, State.finish]
@[simp] theorem deriveEffect_sv : (deriveEffect cfg n s).sv = true := by simp [deriveEffect, State.finish]
@[simp] theorem deriveEffect_keybuf : (deriveEffect cfg n s).keybuf = s.keybuf := by simp [deriveEffect, State.finish]
@[simp] theorem deriveEffect_ibuf : (deriveEffect cfg n s).ibuf = s.ibuf := by simp [deriveEffect, State.finish]
@[simp] theorem deriveEffect_obuf : (deriveEffect cfg n s).obuf = s.obuf := by simp [deriveEffect, State.finish]
@[simp] theorem deriveEffect_busy : (deriveEffect cfg n s).busy = false := by simp [deriveEffect, State.finish]
@[simp] theorem deriveEffect_cur : (deriveEffect cfg n s).cur = s.cur := by simp [deriveEffect, State.finish]
@[simp] theorem deriveEffect_result : (deriveEffect cfg n s).result = codeOk := by simp [deriveEffect, State.finish]
@[simp] theorem deriveEffect_faultBits : (deriveEffect cfg n s).faultBits = s.faultBits := by simp [deriveEffect, State.finish]
@[simp] theorem deriveEffect_draws : (deriveEffect cfg n s).draws = s.draws + 72 := by simp [deriveEffect, State.finish]
@[simp] theorem deriveEffect_events : (deriveEffect cfg n s).events = s.events := by simp [deriveEffect, State.finish]
@[simp] theorem deriveEffect_reply : (deriveEffect cfg n s).reply = s.reply := by simp [deriveEffect, State.finish]

end

/-! ## The completion steps -/

/-- Every completion step that ends in a next state ends with `BUSY` = 0 and one of the two result codes (R29, R137). -/
structure Completed (s u : State) : Prop where
  keybuf : u.keybuf = s.keybuf
  ibuf : u.ibuf = s.ibuf
  busy : u.busy = false
  cur : u.cur = s.cur
  faultBits : u.faultBits = s.faultBits
  events : u.events = s.events
  reply : u.reply = s.reply
  result : u.result = codeOk ∨ u.result = codeLengthError

theorem Completed.frame {s u : State} (h : Completed s u) : State.CommandFrame s u :=
  ⟨h.keybuf, h.ibuf, h.cur, h.faultBits, h.events, h.reply⟩

theorem EcbKept.completed {s u : State} (h : EcbKept s u) : Completed s (u.finish codeOk) :=
  ⟨h.keybuf, h.ibuf, rfl, h.cur, h.faultBits, h.events, h.reply, .inl rfl⟩

theorem raiseLengthError_completed (s : State) : Completed s s.raiseLengthError :=
  ⟨rfl, rfl, rfl, rfl, rfl, rfl, rfl, .inr rfl⟩

theorem deriveEffect_completed (cfg : Config) (n : Nat) (s : State) : Completed s (deriveEffect cfg n s) :=
  by constructor <;> simp

/-- What DERIVE answers: its effect, or the fault where its stream leaves KEYBUF. -/
theorem deriveIn_cases (cfg : Config) (n : Nat) (s : State) :
    (min n 72 ≤ cfg.keyMax ∧ deriveIn cfg n s = .next (deriveEffect cfg n s)) ∨
    (cfg.keyMax < min n 72 ∧ deriveIn cfg n s = .fault .noSuchByte) := by
  unfold deriveIn
  split
  · next h => exact .inl ⟨h, rfl⟩
  · next h => exact .inr ⟨by omega, rfl⟩

/-- What ECBE and ECBD answer: the length error, their effect, or the fault where the count leaves the buffers. -/
theorem ecbIn_cases (cfg : Config) (t : KeySchedule → Block → Block) (n : Nat) (s : State) :
    (n % 8 ≠ 0 ∧ ecbIn cfg t n s = .next s.raiseLengthError) ∨
    (n % 8 = 0 ∧ n ≤ cfg.bufMax ∧ ecbIn cfg t n s = .next ((ecbLoop t n s).finish codeOk)) ∨
    (n % 8 = 0 ∧ cfg.bufMax < n ∧ ecbIn cfg t n s = .fault .noSuchByte) := by
  unfold ecbIn
  split
  · next h => exact .inl ⟨h, rfl⟩
  · next h =>
    split
    · next hb => exact .inr (.inl ⟨by omega, hb, rfl⟩)
    · next hb => exact .inr (.inr ⟨by omega, by omega, rfl⟩)

theorem mul_div_eight {n : Nat} (h : n % 8 = 0) : 8 * (n / 8) = n := by omega

/-- The states a command can complete in: DERIVE replaces the schedule and sets `SV`; every other command leaves both alone, and OBUF is
what the blocks make of it. -/
inductive Effect (cfg : Config) (s : State) : Instr → State → Prop
  | derive (n : Nat) : Effect cfg s (.derive n) (deriveEffect cfg n s)
  | encb : Effect cfg s .encb ((transformBlock enc 0 s).finish codeOk)
  | decb : Effect cfg s .decb ((transformBlock dec 0 s).finish codeOk)
  | ecbe {n : Nat} (h8 : n % 8 = 0) (hn : n ≤ cfg.bufMax) : Effect cfg s (.ecbe n) ((ecbLoop enc n s).finish codeOk)
  | ecbd {n : Nat} (h8 : n % 8 = 0) (hn : n ≤ cfg.bufMax) : Effect cfg s (.ecbd n) ((ecbLoop dec n s).finish codeOk)
  | ecbeError {n : Nat} (h8 : n % 8 ≠ 0) : Effect cfg s (.ecbe n) s.raiseLengthError
  | ecbdError {n : Nat} (h8 : n % 8 ≠ 0) : Effect cfg s (.ecbd n) s.raiseLengthError

/-- `exec` is the completion step at the default parameters (R7). -/
theorem exec_eq_execIn (i : Instr) (s : State) : exec i s = execIn Config.standard i s := by
  cases i <;> rfl

/-- Everything a completion step can do, if it answers a next state. -/
theorem execIn_effect {cfg : Config} {i : Instr} {s u : State} (h : execIn cfg i s = .next u) : Effect cfg s i u := by
  cases i with
  | derive n =>
    rcases deriveIn_cases cfg n s with ⟨-, e⟩ | ⟨-, e⟩
    · cases e.symm.trans h; exact .derive n
    · cases e.symm.trans h
  | encb => cases h; exact .encb
  | decb => cases h; exact .decb
  | ecbe n =>
    rcases ecbIn_cases cfg enc n s with ⟨h8, e⟩ | ⟨h8, hn, e⟩ | ⟨-, -, e⟩
    · cases e.symm.trans h; exact .ecbeError h8
    · cases e.symm.trans h; exact .ecbe h8 hn
    · cases e.symm.trans h
  | ecbd n =>
    rcases ecbIn_cases cfg dec n s with ⟨h8, e⟩ | ⟨h8, hn, e⟩ | ⟨-, -, e⟩
    · cases e.symm.trans h; exact .ecbdError h8
    · cases e.symm.trans h; exact .ecbd h8 hn
    · cases e.symm.trans h

theorem exec_effect {i : Instr} {s u : State} (h : exec i s = .next u) : Effect Config.standard s i u :=
  execIn_effect (by rw [← exec_eq_execIn]; exact h)

/-- A command whose count is in range completes (R137: every completion step is total). -/
theorem execIn_completes {cfg : Config} {i : Instr} (s : State) (h : Instr.inRange cfg i = true) :
    ∃ u, execIn cfg i s = .next u := by
  cases i with
  | derive n =>
    rcases deriveIn_cases cfg n s with ⟨-, e⟩ | ⟨hlt, -⟩
    · exact ⟨_, e⟩
    · simp only [Instr.inRange, decide_eq_true_eq] at h; omega
  | encb => exact ⟨_, rfl⟩
  | decb => exact ⟨_, rfl⟩
  | ecbe n =>
    rcases ecbIn_cases cfg enc n s with ⟨-, e⟩ | ⟨-, -, e⟩ | ⟨-, hlt, -⟩
    · exact ⟨_, e⟩
    · exact ⟨_, e⟩
    · simp only [Instr.inRange, decide_eq_true_eq] at h; omega
  | ecbd n =>
    rcases ecbIn_cases cfg dec n s with ⟨-, e⟩ | ⟨-, -, e⟩ | ⟨-, hlt, -⟩
    · exact ⟨_, e⟩
    · exact ⟨_, e⟩
    · simp only [Instr.inRange, decide_eq_true_eq] at h; omega

theorem exec_completes {i : Instr} (s : State) (h : Instr.inRange Config.standard i = true) : ∃ u, exec i s = .next u := by
  rw [exec_eq_execIn]; exact execIn_completes s h

theorem ecbLoop_kept_of_mod {n : Nat} (t : KeySchedule → Block → Block) (s : State) (h8 : n % 8 = 0) :
    EcbKept s (ecbLoop t n s) := by
  rw [← mul_div_eight h8]; exact ecbLoop_kept t _ s

/-- What every command leaves alone, and how it ends. -/
theorem Effect.completed {cfg : Config} {s u : State} {i : Instr} (h : Effect cfg s i u) : Completed s u := by
  cases h with
  | derive n => exact deriveEffect_completed _ n s
  | encb => exact ((EcbKept.refl s).step enc 0).completed
  | decb => exact ((EcbKept.refl s).step dec 0).completed
  | ecbe h8 _ => exact (ecbLoop_kept_of_mod enc s h8).completed
  | ecbd h8 _ => exact (ecbLoop_kept_of_mod dec s h8).completed
  | ecbeError _ => exact raiseLengthError_completed s
  | ecbdError _ => exact raiseLengthError_completed s

/-- A command either is a DERIVE, which leaves a finished schedule and `SV` = 1, or leaves the schedule and `SV` alone (R20, R21). -/
theorem Effect.schedule {cfg : Config} {s u : State} {i : Instr} (h : Effect cfg s i u) :
    (∃ n, i = .derive n ∧ u.sv = true ∧ u.obuf = s.obuf ∧
      u.sched = (buildSchedule cfg.init (keyStream s n)).sched) ∨
    (Instr.needsSchedule i = true ∧ u.sched = s.sched ∧ u.sv = s.sv) := by
  cases h with
  | derive n => exact .inl ⟨n, rfl, by simp⟩
  | encb => exact .inr ⟨rfl, rfl, rfl⟩
  | decb => exact .inr ⟨rfl, rfl, rfl⟩
  | ecbe h8 _ => have k := ecbLoop_kept_of_mod enc s h8; exact .inr ⟨rfl, k.sched, k.sv⟩
  | ecbd h8 _ => have k := ecbLoop_kept_of_mod dec s h8; exact .inr ⟨rfl, k.sched, k.sv⟩
  | ecbeError _ => exact .inr ⟨rfl, rfl, rfl⟩
  | ecbdError _ => exact .inr ⟨rfl, rfl, rfl⟩

/-- A command keeps OBUF in good order. -/
theorem Effect.obuf_good {cfg : Config} {s u : State} {i : Instr} (h : Effect cfg s i u)
    (h8 : 8 ≤ cfg.bufMax) (hg : Memory.Good s.obuf cfg.bufMax) : Memory.Good u.obuf cfg.bufMax := by
  cases h with
  | derive n => simpa using hg
  | encb => exact storeBlock_good _ hg (by omega)
  | decb => exact storeBlock_good _ hg (by omega)
  | @ecbe n hmod hn =>
    have := ecbLoop_good enc (n / 8) s hg (by omega)
    rwa [mul_div_eight hmod] at this
  | @ecbd n hmod hn =>
    have := ecbLoop_good dec (n / 8) s hg (by omega)
    rwa [mul_div_eight hmod] at this
  | ecbeError _ => exact hg
  | ecbdError _ => exact hg

end Sys2Proof.Machine
end

