-- ==== Sys2Proof/Laws/Decode.lean ====
section
/-! SUPPORT. The fields of a command word (R61): a word is its three fields, and a word of format C has the fields it is made from. -/

namespace Sys2Proof

/-- A word is its three fields. -/
theorem word_eq_fields (w : Word) : opcField w ++ rsvField w ++ nField w = w := by
  unfold opcField rsvField nField
  ext i hi
  simp only [BitVec.getElem_append, BitVec.getElem_extractLsb']
  grind

@[simp] theorem opcField_commandWord (o : Byte) (n : Nat) : opcField (commandWord o n) = o := by
  unfold opcField commandWord
  ext i hi
  simp only [BitVec.getElem_extractLsb', BitVec.getLsbD_append]
  grind

@[simp] theorem rsvField_commandWord (o : Byte) (n : Nat) : rsvField (commandWord o n) = 0 := by
  unfold rsvField commandWord
  ext i hi
  simp only [BitVec.getElem_extractLsb', BitVec.getLsbD_append]
  grind

@[simp] theorem nField_commandWord (o : Byte) (n : Nat) : nField (commandWord o n) = BitVec.ofNat 16 n := by
  unfold nField commandWord
  ext i hi
  simp only [BitVec.getElem_extractLsb', BitVec.getLsbD_append]
  grind

/-- A word whose reserved field is 0 is the command word of its opcode and its count. -/
theorem commandWord_fields {w : Word} (h : rsvField w = 0) : commandWord (opcField w) (nField w).toNat = w := by
  have hw := word_eq_fields w
  rw [h] at hw
  simpa [commandWord] using hw

/-- Two words with the same fields are the same word. -/
theorem eq_of_fields {w v : Word} (h1 : opcField w = opcField v) (h2 : rsvField w = rsvField v) (h3 : nField w = nField v) :
    w = v := by
  rw [← word_eq_fields w, ← word_eq_fields v, h1, h2, h3]

/-- The mask 0xFFFF0000 keeps the opcode and the reserved field. -/
theorem fields_high_mask (w : Word) :
    opcField (w &&& 0xFFFF0000) = opcField w ∧ rsvField (w &&& 0xFFFF0000) = rsvField w ∧ nField (w &&& 0xFFFF0000) = 0 := by
  unfold opcField rsvField nField
  refine ⟨?_, ?_, ?_⟩ <;> ext i hi <;> simp only [BitVec.getElem_extractLsb', BitVec.getLsbD_and] <;> interval_cases i <;> simp

/-- The mask 0x0000FFFF keeps the count. -/
theorem toNat_low_mask (w : Word) : (w &&& 0x0000FFFF).toNat = (nField w).toNat := by
  have : w &&& 0x0000FFFF = (0 : Byte) ++ (0 : Byte) ++ nField w := by
    unfold nField
    ext i hi
    have hi' : i < 32 := hi
    simp only [BitVec.getElem_and, BitVec.getElem_append, BitVec.getElem_extractLsb']
    interval_cases i <;> simp
  rw [this, BitVec.toNat_append, BitVec.toNat_append]
  simp

end Sys2Proof
end

