-- ==== Sys2Proof/Laws/KeySchedule.lean ====
section
/-! SUPPORT. The construction of a key schedule as one chain of encryptions: which words each encryption replaces, what the running block
is after it, and that only the first 72 bytes of the stream matter to any of it. -/

namespace Sys2Proof.Machine

theorem KeySchedule.eq_of_tables {k q : KeySchedule} (hp : k.p = q.p) (hs : k.s = q.s) : k = q := by
  cases k; cases q; simp only [KeySchedule.mk.injEq]; exact ⟨hp, hs⟩

theorem codeOk_eq : codeOk = 0x00 := rfl
theorem codeLengthError_eq : codeLengthError = 0x01 := rfl
theorem standard_keyMax : Config.standard.keyMax = 72 := by unfold Config.standard; with_reducible rfl
theorem standard_bufMax : Config.standard.bufMax = 4096 := by unfold Config.standard; with_reducible rfl

/-! ## The stream -/

/-- A stream byte of a secret that has been written is the byte written, whatever the draws. -/
theorem keyStream_of_lookup {s : State} {n m : Nat} {v : Byte} (hn : 0 < n)
    (h : Memory.lookup s.keybuf (m % n) = some v) : keyStream s n m = v := by
  simp [keyStream, Nat.pos_iff_ne_zero.1 hn, Memory.readOr_of_lookup _ h]

/-- A chunk depends on its four stream bytes only. -/
theorem chunk_congr {key key' : Nat → Byte} {i : Nat} (h : ∀ m < 4, key (4 * i + m) = key' (4 * i + m)) :
    chunk key i = chunk key' i := by
  have h0 := h 0 (by omega); have h1 := h 1 (by omega); have h2 := h 2 (by omega); have h3 := h 3 (by omega)
  simp only [Nat.add_zero] at h0
  simp only [chunk, h0, h1, h2, h3]

theorem foldl_congr_mem {α β : Type} {f g : β → α → β} (l : List α) (h : ∀ b, ∀ a ∈ l, f b a = g b a) (b : β) :
    l.foldl f b = l.foldl g b := by
  induction l generalizing b with
  | nil => rfl
  | cons a l ih =>
    rw [List.foldl_cons, List.foldl_cons, h b a List.mem_cons_self, ih (fun b c hc => h b c (List.mem_cons_of_mem _ hc))]

/-- The construction depends on the first 72 bytes of the stream only (R83: 18 chunks of four bytes). -/
theorem buildSchedule_congr (init : KeySchedule) {key key' : Nat → Byte} (h : ∀ m < 72, key m = key' m) :
    buildSchedule init key = buildSchedule init key' := by
  have hx : xorPass key init.p = xorPass key' init.p :=
    foldl_congr_mem _ (fun p i _ => by rw [chunk_congr (fun m hm => h (4 * i.val + m) (by omega))]) _
  have hw : startWorking init key = startWorking init key' := by simp only [startWorking, hx]
  simp only [buildSchedule, hw]

/-! ## Step 3: the Round-Key Table -/

/-- An encryption of step 3 leaves every round key but its two alone. -/
theorem replaceRoundKeys_p_other (w : Working) (m : Fin 9) (i : Fin 18) (h : i.val / 2 ≠ m.val) :
    (replaceRoundKeys w m).sched.p[i] = w.sched.p[i] := by
  simp only [replaceRoundKeys, Fin.getElem_fin]
  rw [Vector.getElem_set_ne, Vector.getElem_set_ne] <;> omega

/-- The running block after an encryption of step 3 is the pair it wrote. -/
theorem replaceRoundKeys_run (w : Working) (m : Fin 9) :
    (replaceRoundKeys w m).run = ⟨(replaceRoundKeys w m).sched.p[2 * m.val], (replaceRoundKeys w m).sched.p[2 * m.val + 1]⟩ := by
  simp only [replaceRoundKeys]
  rw [Vector.getElem_set_self, Vector.getElem_set_ne, Vector.getElem_set_self]; omega

/-- Any run of encryptions of step 3 leaves a round key that is in none of their pairs alone. -/
theorem foldl_replaceRoundKeys_p_other (l : List (Fin 9)) (w : Working) (i : Fin 18) (h : ∀ m ∈ l, i.val / 2 ≠ m.val) :
    (l.foldl replaceRoundKeys w).sched.p[i] = w.sched.p[i] := by
  induction l generalizing w with
  | nil => rfl
  | cons m l ih =>
    rw [List.foldl_cons, ih _ (fun k hk => h k (List.mem_cons_of_mem _ hk)),
      replaceRoundKeys_p_other _ _ _ (h m List.mem_cons_self)]

/-- Step 3 leaves the substitution tables alone. -/
theorem foldl_replaceRoundKeys_s (l : List (Fin 9)) (w : Working) : (l.foldl replaceRoundKeys w).sched.s = w.sched.s := by
  induction l generalizing w with
  | nil => rfl
  | cons m l ih => rw [List.foldl_cons, ih]; simp only [replaceRoundKeys]

theorem roundKeyPass_s (w : Working) : (roundKeyPass w).sched.s = w.sched.s := by
  unfold roundKeyPass; exact foldl_replaceRoundKeys_s _ w

/-- The running block after step 3 is the last two round keys. -/
theorem roundKeyPass_run (w : Working) : (roundKeyPass w).run = ⟨(roundKeyPass w).sched.p[16], (roundKeyPass w).sched.p[17]⟩ := by
  have h : List.finRange 9 = (List.finRange 9).take 8 ++ [8] := by decide
  obtain ⟨x, hx⟩ : ∃ x, roundKeyPass w = replaceRoundKeys x 8 := by
    refine ⟨((List.finRange 9).take 8).foldl replaceRoundKeys w, ?_⟩
    unfold roundKeyPass
    rw [h, List.foldl_append, List.foldl_cons, List.foldl_nil, ← h]
  rw [hx]; exact replaceRoundKeys_run x 8

/-! ## Step 4: the Substitution Tables -/

/-- The entries of the tables after one pair is replaced. -/
theorem setPair_get (t : Vector (Vector Word 256) 4) (i : Fin 4) (m : Fin 128) (b : Block) (u : Fin 4) (j : Fin 256) :
    (setPair t i m b)[u][j] =
      if u = i ∧ j.val = 2 * m.val then b.l else if u = i ∧ j.val = 2 * m.val + 1 then b.r else t[u][j] := by
  unfold setPair
  simp only [Fin.getElem_fin, Vector.getElem_set]
  by_cases h : u = i
  · subst h
    simp only [if_true, true_and, Vector.getElem_set]
    by_cases h1 : j.val = 2 * m.val
    · simp [h1]
    · by_cases h2 : j.val = 2 * m.val + 1
      · simp [h2]
      · rw [if_neg (by omega), if_neg (by omega), if_neg h1, if_neg h2]
  · have : ¬i.val = u.val := fun e => h (Fin.ext e.symm)
    simp [h, this]

/-- Two sets of tables with the same entries are the same. -/
theorem tables_ext {t t' : Vector (Vector Word 256) 4} (h : ∀ (u : Fin 4) (j : Fin 256), t[u][j] = t'[u][j]) : t = t' := by
  apply Vector.ext; intro u hu; apply Vector.ext; intro j hj; exact h ⟨u, hu⟩ ⟨j, hj⟩

/-- One encryption of step 4, its table and its pair given together. -/
def tableStep (w : Working) (x : Fin 4 × Fin 128) : Working := replaceTableWords x.1 w x.2

/-- The place of encryption `k` of step 4: its table and its pair. -/
def tablePlace (k : Fin 512) : Fin 4 × Fin 128 := (⟨k.val / 128, by omega⟩, ⟨k.val % 128, Nat.mod_lt _ (by omega)⟩)

/-- The 512 places of step 4 in their order. -/
def tablePlaces : List (Fin 4 × Fin 128) := (List.finRange 4).flatMap fun t => (List.finRange 128).map fun m => (t, m)

theorem tablePlaces_length : tablePlaces.length = 512 := by simp [tablePlaces]

theorem tablePlaces_get? : ∀ k : Fin 512, tablePlaces[k.val]? = some (tablePlace k) := by decide +kernel

theorem tablePlaces_get (k : Nat) (h : k < 512) : tablePlaces[k]'(by rw [tablePlaces_length]; exact h) = tablePlace ⟨k, h⟩ :=
  (List.getElem?_eq_some_iff.1 (tablePlaces_get? ⟨k, h⟩)).2

theorem foldl_tablePass (l : List (Fin 4)) (w : Working) :
    l.foldl tablePass w = (l.flatMap fun t => (List.finRange 128).map fun m => (t, m)).foldl tableStep w := by
  induction l generalizing w with
  | nil => rfl
  | cons t l ih =>
    rw [List.foldl_cons, ih, List.flatMap_cons, List.foldl_append, List.foldl_map]
    rfl

/-- The construction is steps 1 to 3 and then 512 encryptions of step 4 in a row (R86). -/
theorem buildSchedule_eq (init : KeySchedule) (key : Nat → Byte) :
    buildSchedule init key = tablePlaces.foldl tableStep (roundKeyPass (startWorking init key)) := by
  unfold buildSchedule; rw [foldl_tablePass]; unfold tablePlaces; with_reducible rfl

/-- The places before `k` come before it. -/
theorem lt_of_mem_take_tablePlaces {k : Nat} {x : Fin 4 × Fin 128} (h : x ∈ tablePlaces.take k) :
    128 * x.1.val + x.2.val < k := by
  obtain ⟨i, hi, rfl⟩ := List.getElem_of_mem h
  simp only [List.length_take, tablePlaces_length] at hi
  rw [List.getElem_take, tablePlaces_get _ (by omega)]
  simp only [tablePlace]; omega

/-- The places from `k` on do not. -/
theorem le_of_mem_drop_tablePlaces {k : Nat} {x : Fin 4 × Fin 128} (h : x ∈ tablePlaces.drop k) :
    k ≤ 128 * x.1.val + x.2.val := by
  obtain ⟨i, hi, rfl⟩ := List.getElem_of_mem h
  simp only [List.length_drop, tablePlaces_length] at hi
  rw [List.getElem_drop, tablePlaces_get _ (by omega)]
  simp only [tablePlace]; omega

/-- Step 4 taken apart at encryption `k`. -/
theorem foldl_tablePlaces_split (w : Working) (k : Fin 512) :
    tablePlaces.foldl tableStep w =
      (tablePlaces.drop (k.val + 1)).foldl tableStep (tableStep ((tablePlaces.take k.val).foldl tableStep w) (tablePlace k)) := by
  have hk : k.val < tablePlaces.length := by rw [tablePlaces_length]; exact k.isLt
  have h : tablePlaces = tablePlaces.take k.val ++ tablePlaces[k.val] :: tablePlaces.drop (k.val + 1) := by
    rw [List.getElem_cons_drop, List.take_append_drop]
  conv_lhs => rw [h]
  rw [List.foldl_append, List.foldl_cons, tablePlaces_get k.val k.isLt]

/-- One encryption more of step 4. -/
theorem foldl_take_tablePlaces_succ (w : Working) (k : Fin 512) :
    (tablePlaces.take (k.val + 1)).foldl tableStep w = tableStep ((tablePlaces.take k.val).foldl tableStep w) (tablePlace k) := by
  rw [List.take_add_one, List.foldl_append, tablePlaces_get?]
  rfl

/-- Any run of encryptions of step 4 leaves an entry that is in none of their pairs alone. -/
theorem foldl_tableStep_s_other (l : List (Fin 4 × Fin 128)) (w : Working) (u : Fin 4) (j : Fin 256)
    (h : ∀ x ∈ l, ¬(x.1 = u ∧ j.val / 2 = x.2.val)) : (l.foldl tableStep w).sched.s[u][j] = w.sched.s[u][j] := by
  induction l generalizing w with
  | nil => rfl
  | cons x l ih =>
    rw [List.foldl_cons, ih _ (fun k hk => h k (List.mem_cons_of_mem _ hk))]
    have h0 := h x List.mem_cons_self
    simp only [tableStep, replaceTableWords]
    rw [setPair_get, if_neg, if_neg]
    · rintro ⟨rfl, h⟩; exact h0 ⟨rfl, by omega⟩
    · rintro ⟨rfl, h⟩; exact h0 ⟨rfl, by omega⟩

/-- Step 4 leaves the round keys alone. -/
theorem foldl_tableStep_p (l : List (Fin 4 × Fin 128)) (w : Working) : (l.foldl tableStep w).sched.p = w.sched.p := by
  induction l generalizing w with
  | nil => rfl
  | cons x l ih => rw [List.foldl_cons, ih]; simp only [tableStep, replaceTableWords]

/-- The running block after an encryption of step 4 is the pair it wrote. -/
theorem tableStep_run (w : Working) (x : Fin 4 × Fin 128) :
    (tableStep w x).run = ⟨(tableStep w x).sched.s[x.1][2 * x.2.val], (tableStep w x).sched.s[x.1][2 * x.2.val + 1]⟩ := by
  have a := setPair_get w.sched.s x.1 x.2 (enc w.sched w.run) x.1 ⟨2 * x.2.val, by omega⟩
  have b := setPair_get w.sched.s x.1 x.2 (enc w.sched w.run) x.1 ⟨2 * x.2.val + 1, by omega⟩
  simp only [Fin.getElem_fin] at a b
  simp only [tableStep, replaceTableWords]
  simp only [Fin.getElem_fin, a, b]
  simp

/-- The running block at the end of the construction is the last two words it wrote (R87). -/
theorem buildSchedule_run (init : KeySchedule) (key : Nat → Byte) :
    (buildSchedule init key).run = ⟨(buildSchedule init key).sched.s[3][254], (buildSchedule init key).sched.s[3][255]⟩ := by
  have h : tablePlaces.drop 512 = [] := by rw [List.drop_eq_nil_iff, tablePlaces_length]
  rw [buildSchedule_eq, foldl_tablePlaces_split _ 511]
  show (List.foldl tableStep _ (tablePlaces.drop 512)).run = _
  rw [show (511 : Fin 512).val + 1 = 512 from rfl, h, List.foldl_nil]
  exact tableStep_run _ _

end Sys2Proof.Machine
end

