-- ==== Sys2Proof/Laws/Machine.lean ====
section
/-! SUPPORT. Everything a host action can do and everything a step can do, said once. -/

namespace Sys2Proof.Machine

/-! ## Fields after the shared operations -/

section
variable (s : State) (b : FaultBit)

@[simp] theorem State.raise_l : (s.raise b).l = s.l := rfl
@[simp] theorem State.raise_r : (s.raise b).r = s.r := rfl
@[simp] theorem State.raise_sched : (s.raise b).sched = s.sched := rfl
@[simp] theorem State.raise_sv : (s.raise b).sv = s.sv := rfl
@[simp] theorem State.raise_keybuf : (s.raise b).keybuf = s.keybuf := rfl
@[simp] theorem State.raise_ibuf : (s.raise b).ibuf = s.ibuf := rfl
@[simp] theorem State.raise_obuf : (s.raise b).obuf = s.obuf := rfl
@[simp] theorem State.raise_busy : (s.raise b).busy = s.busy := rfl
@[simp] theorem State.raise_cur : (s.raise b).cur = s.cur := rfl
@[simp] theorem State.raise_result : (s.raise b).result = s.result := rfl
@[simp] theorem State.raise_faultBits : (s.raise b).faultBits = s.faultBits ||| b.mask := rfl
@[simp] theorem State.raise_draws : (s.raise b).draws = s.draws := rfl
@[simp] theorem State.raise_events : (s.raise b).events = s.events := rfl
@[simp] theorem State.raise_reply : (s.raise b).reply = s.reply := rfl

end

/-! ## The host -/

/-- The outcomes of a host action (R130): a protocol fault that drops it, a value returned, a byte stored while the core is idle, a command
accepted, or a reset. -/
inductive HostEffect (cfg : Config) (s : State) : HostAction → State → Prop
  | fault (a : HostAction) (b : FaultBit) (v : Option Reply) : HostEffect cfg s a ((s.raise b).setReply v)
  | read (a : HostAction) (v : Option Reply) (k : Nat) : HostEffect cfg s a ((s.setReply v).advance k)
  | store (b : Buffer) (k : Nat) (v : Byte) (idle : s.busy = false) (writable : b ≠ .obuf) (inside : k < b.size cfg) :
      HostEffect cfg s (.byteWrite b k v) ((s.setBuffer b (Memory.write (s.buffer b) k v)).setReply none)
  | accepted (w : Word) (i : Instr) (word : decode w = .ok i) (idle : s.busy = false) (inRange : Instr.inRange cfg i = true)
      (sched : Instr.needsSchedule i = true → s.sv = true) :
      HostEffect cfg s (.regWrite .cmd w) ((accept i s).setReply none)
  | reset : HostEffect cfg s .reset s.applyReset

/-- The issue of a command (R136): one of four faults, or acceptance. -/
theorem issue_cases (cfg : Config) (w : Word) (s : State) :
    (∃ b, issue cfg w s = s.raise b) ∨
    (∃ i, decode w = .ok i ∧ s.busy = false ∧ Instr.inRange cfg i = true ∧ (Instr.needsSchedule i = true → s.sv = true) ∧
      issue cfg w s = accept i s) := by
  unfold issue
  cases hb : s.busy with
  | true => exact .inl ⟨_, rfl⟩
  | false =>
    cases hd : decode w with
    | error e => exact .inl ⟨.illegal, by simp⟩
    | ok i =>
      cases hr : refusalOf cfg i s with
      | some b => exact .inl ⟨b, by simp [hr]⟩
      | none =>
        refine .inr ⟨i, rfl, rfl, ?_, ?_, by simp [hr]⟩
        · unfold refusalOf at hr
          split at hr
          · simp at hr
          · simpa using ‹¬Instr.inRange cfg i = false›
        · intro hn
          unfold refusalOf at hr
          split at hr
          · simp at hr
          · split at hr
            · simp at hr
            · simpa [hn] using ‹¬(Instr.needsSchedule i && !s.sv) = true›

theorem dropWrite_cases (s : State) : ∃ b, s.dropWrite = s.raise b := by
  unfold State.dropWrite
  split
  · exact ⟨_, rfl⟩
  · exact ⟨_, rfl⟩

/-- Everything a host action can do. -/
theorem hostStep_effect (cfg : Config) (a : HostAction) (s : State) : HostEffect cfg s a (hostStep cfg a s) := by
  cases a with
  | regRead r =>
    cases r with
    | cmd => exact .fault _ .access _
    | status => exact .read (s := s) _ (some (.word s.statusWord)) 0
    | result => exact .read (s := s) _ (some (.word s.resultWord)) 0
    | fault => exact .read (s := s) _ (some (.word s.faultWord)) 0
  | regWrite r w =>
    obtain ⟨b, hb⟩ := dropWrite_cases s
    cases r with
    | cmd =>
      show HostEffect cfg s _ ((issue cfg w s).setReply none)
      rcases issue_cases cfg w s with ⟨b, e⟩ | ⟨i, hd, hb, hr, hn, e⟩
      · rw [e]; exact .fault _ b _
      · rw [e]; exact .accepted w i hd hb hr hn
    | status => show HostEffect cfg s _ (s.dropWrite.setReply none); rw [hb]; exact .fault _ b _
    | result => show HostEffect cfg s _ (s.dropWrite.setReply none); rw [hb]; exact .fault _ b _
    | fault => show HostEffect cfg s _ (s.dropWrite.setReply none); rw [hb]; exact .fault _ b _
  | byteRead b k =>
    show HostEffect cfg s _ (byteRead cfg b k s)
    unfold byteRead
    split
    · exact .fault _ .access _
    · split
      · exact .read _ _ 1
      · split
        · next v _ => exact .read (s := s) _ (some (.byte v)) 0
        · exact .read _ _ 1
  | byteWrite b k v =>
    show HostEffect cfg s _ (byteWrite cfg b k v s)
    unfold byteWrite
    split
    · exact .fault _ .busyviol _
    · split
      · exact .fault _ .access _
      · split
        · exact .fault _ .access _
        · next hb ho hk => exact .store b k v (by simpa using hb) ho (by omega)
  | strayRead width => exact .fault _ .access _
  | strayWrite width =>
    obtain ⟨b, hb⟩ := dropWrite_cases s
    show HostEffect cfg s _ (s.dropWrite.setReply none)
    rw [hb]; exact .fault _ b _
  | reset => exact .reset

/-! ## The step -/

/-- The core's turn: the next event says so, or none is left (R182). -/
def CoreTurn (s : State) (rest : List Event) : Prop := (s.events = [] ∧ rest = []) ∨ s.events = .complete :: rest

/-- The outcomes of a step that answers a next state: the idle core's turn, a command completed, a host action, power applied. -/
inductive StepEffect (cfg : Config) (s : State) : State → Prop
  | idle (rest : List Event) (turn : CoreTurn s rest) (idle : s.busy = false) : StepEffect cfg s (s.setEvents rest)
  | command (rest : List Event) (turn : CoreTurn s rest) (busy : s.busy = true) {t : State}
      (effect : Effect cfg (s.setEvents rest) s.cur t) : StepEffect cfg s t
  | host (e : Event) (a : HostAction) (rest : List Event) (next : s.events = e :: rest)
      (names : e = .host a ∨ ∃ b : BusAccess, e = .bus b ∧ b.toAction = a) {t : State}
      (effect : HostEffect cfg (s.setEvents rest) a t) : StepEffect cfg s t
  | powerOn (rest : List Event) (next : s.events = .powerOn :: rest) : StepEffect cfg s (s.setEvents rest).applyPowerOn

/-- The step of the host's interface is the step with the default parameters (R7). -/
theorem step_eq_stepIn (s : State) : step s = stepIn Config.standard s := by
  have h : exec = execIn Config.standard := by funext i s; exact exec_eq_execIn i s
  unfold step stepIn; rw [h]

theorem complete_cases {cfg : Config} {s t : State} (h : complete (execIn cfg) s = .next t) :
    (s.busy = true ∧ Effect cfg s s.cur t) ∨ (s.busy = false ∧ t = s) := by
  unfold complete at h
  cases hb : s.busy with
  | true => rw [hb] at h; exact .inl ⟨rfl, execIn_effect (by simpa using h)⟩
  | false => rw [hb] at h; exact .inr ⟨rfl, by simpa using h.symm⟩

/-- Everything a step can do. -/
theorem stepIn_effect {cfg : Config} {s t : State} (h : stepIn cfg s = .next t) : StepEffect cfg s t := by
  unfold stepIn advanceMachine at h
  split at h
  · next he =>
    have hs : s.setEvents [] = s := by unfold State.setEvents; rw [← he]
    rcases complete_cases h with ⟨hb, e⟩ | ⟨hb, rfl⟩
    · exact .command [] (.inl ⟨he, rfl⟩) hb (hs.symm ▸ e)
    · have := StepEffect.idle (cfg := cfg) (s := t) [] (.inl ⟨he, rfl⟩) hb
      rwa [hs] at this
  · next e rest he =>
    cases e with
    | host a =>
      have : hostStep cfg a (s.setEvents rest) = t := by simpa [runEvent] using h
      exact .host _ a rest he (.inl rfl) (this ▸ hostStep_effect _ _ _)
    | bus b =>
      have : hostStep cfg b.toAction (s.setEvents rest) = t := by simpa [runEvent] using h
      exact .host _ b.toAction rest he (.inr ⟨b, rfl, rfl⟩) (this ▸ hostStep_effect _ _ _)
    | complete =>
      rcases complete_cases (s := s.setEvents rest) (by simpa [runEvent] using h) with ⟨hb, e⟩ | ⟨hb, rfl⟩
      · exact .command rest (.inr he) hb e
      · exact .idle rest (.inr he) hb
    | powerOn =>
      have : (s.setEvents rest).applyPowerOn = t := by simpa [runEvent] using h
      exact this ▸ .powerOn rest he

theorem step_effect {s t : State} (h : step s = .next t) : StepEffect Config.standard s t :=
  stepIn_effect (by rw [← step_eq_stepIn]; exact h)

/-- A host event at the head of the order is the next step. -/
theorem stepIn_host {cfg : Config} {s : State} {a : HostAction} {rest : List Event} (h : s.events = .host a :: rest) :
    stepIn cfg s = .next (hostStep cfg a (s.setEvents rest)) := by
  unfold stepIn advanceMachine; rw [h]; rfl

theorem step_host {s : State} {a : HostAction} {rest : List Event} (h : s.events = .host a :: rest) :
    step s = .next (hostStep Config.standard a (s.setEvents rest)) := by
  rw [step_eq_stepIn]; exact stepIn_host h

theorem HostEffect.events {cfg : Config} {s t : State} {a : HostAction} (h : HostEffect cfg s a t) : t.events = s.events := by
  cases h with
  | fault a b v => rfl
  | read a v k => rfl
  | store b k v => cases b <;> rfl
  | accepted w i => rfl
  | reset => rfl

/-- A step takes one event off the order. -/
theorem stepIn_events {cfg : Config} {s t : State} (h : stepIn cfg s = .next t) : t.events = s.events.tail := by
  rcases stepIn_effect h with ⟨rest, turn, idle⟩ | ⟨rest, turn, busy, eff⟩ | ⟨e, a, rest, next, names, eff⟩ | ⟨rest, next⟩
  · show rest = _
    rcases turn with ⟨he, rfl⟩ | he <;> rw [he] <;> rfl
  · rw [eff.completed.events]
    rcases turn with ⟨he, rfl⟩ | he <;> rw [he] <;> rfl
  · rw [eff.events, next]; rfl
  · rw [next]; rfl

theorem step_events {s t : State} (h : step s = .next t) : t.events = s.events.tail :=
  stepIn_events (by rw [← step_eq_stepIn]; exact h)

/-- A command in flight that is in range completes, and the core is idle after its turn (R137). -/
theorem complete_next {cfg : Config} {s : State} (h : s.busy = true → Instr.inRange cfg s.cur = true) :
    ∃ t, complete (execIn cfg) s = .next t ∧ t.busy = false := by
  unfold complete
  cases hb : s.busy with
  | true =>
    obtain ⟨u, hu⟩ := execIn_completes s (h hb)
    exact ⟨u, by simpa using hu, (execIn_effect hu).completed.busy⟩
  | false => exact ⟨s, rfl, hb⟩

/-- A run of one step more. -/
theorem core_run_succ {s t : State} {n : Nat} (h : step s = .next t) :
    Host.Core.run Sys2Proof.core (n + 1) s = Host.Core.run Sys2Proof.core n t := by
  have h' : Sys2Proof.core.step s = .next t := h
  simp only [Host.Core.run, h']

/-- No flat address names a reset. -/
theorem toAction_ne_reset (b : BusAccess) : b.toAction ≠ .reset := by
  cases b <;> simp only [BusAccess.toAction] <;> split <;> simp

end Sys2Proof.Machine
end

