-- ==== Sys2Proof/Laws/PerInstr.lean ====
section
/-! SUPPORT. Statements about every command as syntax, one lemma per constructor. -/

namespace Sys2Proof.Laws

/-- The word of a well-formed command matches its own row of the opcode map (R63). -/
def FieldPattern.Statement (i : Instr) : Prop := i.wellFormed = true → encode i &&& maskOf i = matchOf i

/-- The mask 0xFFFF0000 takes the count out of a word whose reserved field is 0. -/
theorem FieldPattern.commandWord_mask (o : Byte) (n : Nat) : commandWord o n &&& 0xFFFF0000 = commandWord o 0 := by
  have h := fields_high_mask (commandWord o n)
  refine eq_of_fields ?_ ?_ ?_
  · rw [h.1, opcField_commandWord, opcField_commandWord]
  · rw [h.2.1, rsvField_commandWord, rsvField_commandWord]
  · rw [h.2.2, nField_commandWord]; rfl

theorem FieldPattern.derive (n : Nat) : FieldPattern.Statement (.derive n) := fun _ =>
  (FieldPattern.commandWord_mask 0x01 n).trans (show commandWord 0x01 0 = 0x01000000 by decide)

theorem FieldPattern.encb : FieldPattern.Statement .encb := fun _ => by decide

theorem FieldPattern.decb : FieldPattern.Statement .decb := fun _ => by decide

theorem FieldPattern.ecbe (n : Nat) : FieldPattern.Statement (.ecbe n) := fun _ =>
  (FieldPattern.commandWord_mask 0x04 n).trans (show commandWord 0x04 0 = 0x04000000 by decide)

theorem FieldPattern.ecbd (n : Nat) : FieldPattern.Statement (.ecbd n) := fun _ =>
  (FieldPattern.commandWord_mask 0x05 n).trans (show commandWord 0x05 0 = 0x05000000 by decide)

end Sys2Proof.Laws
end

