-- ==== Sys2Proof/Laws/Script.lean ====
section
/-! SUPPORT. What one turn of the host or of the core does to a script on its way, and how turns add up. -/

namespace Sys2Proof.Machine

/-- An action that the host performs is that action, and the order of events is as it was. -/
theorem perform_host (cfg : Config) (a : HostAction) (s : State) : perform cfg (.host a) s = .next (hostStep cfg a s) :=
  stepIn_host rfl

/-- The core's turn is its step. -/
theorem perform_complete (cfg : Config) (s : State) : perform cfg .complete s = complete (execIn cfg) s := rfl

/-- The host's turn, with something left to do. -/
theorem ScriptRun.hostTurn_cons (cfg : Config) (s : State) (task : HostTask) (rest : List HostTask) (result : List Byte) :
    ScriptRun.hostTurn cfg ⟨s, task :: rest, result⟩ =
      .next ⟨hostStep cfg task.next.action s, task.remaining (hostStep cfg task.next.action s).reply ++ rest,
        result ++ task.collected (hostStep cfg task.next.action s).reply⟩ := by
  simp only [ScriptRun.hostTurn, perform_host]

/-- The core's turn, where its step answers a next state. -/
theorem ScriptRun.coreTurn_next {cfg : Config} {s t : State} (todo : List HostTask) (result : List Byte)
    (h : complete (execIn cfg) s = .next t) : ScriptRun.coreTurn cfg ⟨s, todo, result⟩ = .next ⟨t, todo, result⟩ := by
  simp only [ScriptRun.coreTurn, perform_complete, h]

theorem ScriptRun.take_host (cfg : Config) (r : ScriptRun) : ScriptRun.take cfg .host r = r.hostTurn cfg := rfl

theorem ScriptRun.take_core (cfg : Config) (r : ScriptRun) : ScriptRun.take cfg .core r = r.coreTurn cfg := rfl

theorem ScriptRun.run_nil (cfg : Config) (r : ScriptRun) : ScriptRun.run cfg [] r = .next r := rfl

/-- A turn that answers a next state, then the rest. -/
theorem ScriptRun.run_cons {cfg : Config} {turn : Turn} {turns : List Turn} {r r' : ScriptRun}
    (h : ScriptRun.take cfg turn r = .next r') : ScriptRun.run cfg (turn :: turns) r = ScriptRun.run cfg turns r' := by
  simp only [ScriptRun.run, h]

/-- A run in two parts. -/
theorem ScriptRun.run_append {cfg : Config} (turns more : List Turn) {r r' : ScriptRun}
    (h : ScriptRun.run cfg turns r = .next r') : ScriptRun.run cfg (turns ++ more) r = ScriptRun.run cfg more r' := by
  induction turns generalizing r with
  | nil => cases h; rfl
  | cons turn turns ih =>
    simp only [ScriptRun.run] at h
    cases ht : ScriptRun.take cfg turn r with
    | next x => rw [ht] at h; rw [List.cons_append, ScriptRun.run_cons ht]; exact ih h
    | fault f => rw [ht] at h; cases h
    | refused x => rw [ht] at h; cases h

end Sys2Proof.Machine
end

