-- ==== Sys2Proof/Tests/Slice0.lean ====
section
/-! SUPPORT. Small tests, each with its expected result from the spec's own words or vectors (spec/95_test_vectors.md), and a witness for
the hypotheses of every obligation that has some. -/

namespace Sys2Proof.Tests

open Sys2Proof Sys2Proof.Machine

/- One kernel evaluation at a time: side by side, the many evaluations below would each wait in a thread of their own. -/
set_option Elab.async false

/-! ## Helpers -/

/-- The next state, if there is one. -/
def after (o : Host.Outcome State Fault Refusal) : Option State :=
  match o with
  | .next t => some t
  | .fault _ => none
  | .refused _ => none

/-- A buffer holding these bytes from index 0 on. -/
def bytesFromZero (bytes : List Byte) : Memory := bytes.zipIdx.map (fun c => (c.2, c.1))

/-- The ASCII bytes `BLOWFISH` (V9). -/
def blowfish : List Byte := [0x42, 0x4c, 0x4f, 0x57, 0x46, 0x49, 0x53, 0x48]

/-- A schedule of zeros (V5.7). -/
def zeroSchedule : KeySchedule := State.reset.sched

/-- Idle with `INIT` as its schedule (V5.7: no DERIVE makes it). -/
def ready : State := { State.reset with sched := Config.initConstant, sv := true }

/-- Idle with a schedule and nothing but these events to come. -/
def readyFor (events : List Event) : State := { ready with events := events }

/-- The command in flight, with nothing but these events to come. -/
def inFlight (i : Instr) (events : List Event) : State :=
  { ready with cur := i, busy := true, sv := Instr.needsSchedule i, events := events }

/-- After reset, with nothing but these events to come. -/
def resetFor (events : List Event) : State := { State.reset with events := events }

/-! ## WellFormed: one ill-formed term for each check -/

theorem test_illFormed_derive : Instr.wellFormed (.derive 65536) = false := by decide
theorem test_illFormed_ecbe : Instr.wellFormed (.ecbe 65536) = false := by decide
theorem test_illFormed_ecbd : Instr.wellFormed (.ecbd 65536) = false := by decide
theorem test_wellFormed_largest : [Instr.derive 65535, .encb, .decb, .ecbe 65535, .ecbd 65535].all Instr.wellFormed = true := by
  decide

/-! ## Decode: words written out from the format and the opcode map (R61, R63): `OPC`, `RSV`, `N` -/

theorem test_decode_derive : decode 0b00000001_00000000_0000000000011010 = .ok (.derive 26) := by decide
theorem test_decode_encb : decode 0b00000010_00000000_0000000000000000 = .ok .encb := by decide
theorem test_decode_decb : decode 0b00000011_00000000_0000000000000000 = .ok .decb := by decide
theorem test_decode_ecbe : decode 0b00000100_00000000_0001000000000000 = .ok (.ecbe 4096) := by decide
theorem test_decode_ecbd : decode 0b00000101_00000000_1111111111111111 = .ok (.ecbd 65535) := by decide
/-- V10.8, V10.10, V10.23, V10.24, V10.26, V10.27. -/
theorem test_decode_illegal :
    [0x0200ffff, 0x03000008, 0xffffffff, 0x01010000, 0x02ff0000, 0x80000000].all
      (fun w => (decode w).toOption.isNone) = true := by decide
theorem test_encode_derive : encode (.derive 72) = 0x01000048 := by decide
theorem test_tableWord_ecbe : decodeTableWord 32 0x04000007 = some (.ecbe 7) := by decide
theorem test_tableWord_tooWide : decodeTableWord 40 0x02000000 = none := by decide

/-! ## The supplied constant, the block transform, the key schedule -/

/-- The checksum R39 gives for the 1042 words. -/
theorem test_init_sum :
    (Config.initPWords ++ Config.initS0Words ++ Config.initS1Words ++ Config.initS2Words ++ Config.initS3Words).foldl (· + ·) 0 =
      0x6bbf03ac := by decide +kernel

/-- V3.3: four different indices, each table its own byte. -/
theorem test_feistelF_byteOrder : feistelF Config.initConstant.s 0x01020304 = 0x3cedff8c := by decide +kernel
/-- V3.2: the last entry of every table. -/
theorem test_feistelF_lastEntries : feistelF Config.initConstant.s 0xffffffff = 0x452c2867 := by decide +kernel

/-- V5.7: `DEC(0, 0)` under the bare `INIT`. -/
theorem test_dec_init : dec Config.initConstant ⟨0, 0⟩ = ⟨0x3e6c275d, 0x20c8ab5a⟩ := by decide +kernel
/-- V5.7: sixteen exchanges and the exchange of `FINAL`. -/
theorem test_enc_zeroSchedule : enc zeroSchedule ⟨0x01234567, 0x89abcdef⟩ = ⟨0x89abcdef, 0x01234567⟩ := by decide +kernel

/-- V6.5: the position in the secret carries over from chunk to chunk. -/
theorem test_chunk_carriesOver :
    (List.range 6).map (chunk (keyStream { State.reset with keybuf := bytesFromZero [1, 2, 3, 4, 5] } 5)) =
      [0x01020304, 0x05010203, 0x04050102, 0x03040501, 0x02030405, 0x01020304] := by decide +kernel

/-- V7.2: the first two encryptions of step 3 for the secret `abc`, each on the output of the one before. -/
theorem test_replaceRoundKeys_chain :
    (((List.finRange 9).take 2).foldl replaceRoundKeys
      (startWorking Config.initConstant (keyStream { State.reset with keybuf := bytesFromZero [0x61, 0x62, 0x63] } 3))).run =
      ⟨0x0cbc0f04, 0x82420ba0⟩ := by decide +kernel

/-- V5.7 and R86: an encryption of step 4 on a running block of zero under the bare `INIT`, the two entries it replaces, and the
next, which it leaves. -/
theorem test_replaceTableWords_entries :
    ((replaceTableWords 0 ⟨Config.initConstant, ⟨0, 0⟩⟩ 0).sched.s[0].toList.take 3) = [0x706d9fcc, 0x1792d23a, 0x2ffd72db] := by
  decide +kernel

/-! ## One completion step of each command -/

/-- R80, R21: DERIVE ends with `SV` = 1 and KEYBUF as it was. -/
theorem test_derive_completes :
    (after (exec (.derive 3) { State.reset with keybuf := bytesFromZero [0x61, 0x62, 0x63], busy := true })).map
      (fun t => (t.sv, t.busy, t.result, t.keybuf.length)) = some (true, false, 0x00, 3) := by decide +kernel

/-- V5.7: ENCB of zeros under the bare `INIT`, the bytes in the order of R43. -/
theorem test_encb_bytes :
    (after (exec .encb { ready with ibuf := bytesFromZero (List.replicate 8 0x00) })).map (fun t => t.obuf) =
      some (bytesFromZero [0x70, 0x6d, 0x9f, 0xcc, 0x17, 0x92, 0xd2, 0x3a]) := by decide +kernel

/-- V5.7, read backwards: DECB gives the zeros back. -/
theorem test_decb_bytes :
    (after (exec .decb { ready with ibuf := bytesFromZero [0x70, 0x6d, 0x9f, 0xcc, 0x17, 0x92, 0xd2, 0x3a] })).map
      (fun t => (t.obuf, t.l, t.r)) = some (bytesFromZero (List.replicate 8 0x00), 0, 0) := by decide +kernel

/-- V5.7 twice over (R110, R114): two equal blocks give two equal blocks. -/
theorem test_ecbe_twoBlocks :
    (after (exec (.ecbe 16) { ready with ibuf := bytesFromZero (List.replicate 16 0x00) })).map (fun t => (t.obuf, t.result)) =
      some (bytesFromZero [0x70, 0x6d, 0x9f, 0xcc, 0x17, 0x92, 0xd2, 0x3a, 0x70, 0x6d, 0x9f, 0xcc, 0x17, 0x92, 0xd2, 0x3a],
        0x00) := by decide +kernel

/-- V9.6: a partial block, and the full block before it is not processed. -/
theorem test_ecbe_partialBlock :
    (after (exec (.ecbe 9) { ready with ibuf := bytesFromZero (blowfish ++ [0x00]), busy := true })).map
      (fun t => (t.obuf, t.result, t.busy, t.l)) = some ([], 0x01, false, 0) := by decide +kernel

/-- V9.4, for ECBD: no block, and the command succeeds. -/
theorem test_ecbd_empty :
    (after (exec (.ecbd 0) { ready with l := 7, result := 0x01 })).map (fun t => (t.obuf, t.result, t.l)) =
      some ([], 0x00, 7) := by decide +kernel

/-- V5.7: the bytes beyond `n` are kept (D27). -/
theorem test_ecbd_keepsTheRest :
    (after (exec (.ecbd 8) { ready with
      ibuf := bytesFromZero [0x70, 0x6d, 0x9f, 0xcc, 0x17, 0x92, 0xd2, 0x3a], obuf := [(0, 0x11), (8, 0x22)] })).map
      (fun t => t.obuf) = some (bytesFromZero (List.replicate 8 0x00 ++ [0x22])) := by decide +kernel

/-! ## The host port (V11, V12) and reset (V13) -/

/-- V11.2, V11.3, V11.4: the priority of the checks without a schedule. -/
theorem test_issue_priority :
    [(0x04000007 : Word), 0x02000001, 0x0400ffff].map (fun w => (issue Config.standard w State.reset).faultBits) =
      [0x04, 0x01, 0x08] := by decide +kernel

/-- V11.9, V11.10, V11.11: `BUSYVIOL` comes before every other check. -/
theorem test_issue_busy :
    [(0x02000000 : Word), 0xffffffff, 0x0400ffff].map (fun w => (issue Config.standard w (inFlight (.derive 0) [])).faultBits) =
      [0x02, 0x02, 0x02] := by decide +kernel

/-- V11.13: earlier faults do not block a legal command. -/
theorem test_issue_accepted :
    (fun t : State => (t.faultBits, t.busy, t.sv, t.cur)) (issue Config.standard 0x02000000 { ready with faultBits := 0x15 }) =
      (0x15, true, true, .encb) := by decide +kernel

/-- V12.2, V12.3, V12.4: the STATUS word. -/
theorem test_status_words :
    [inFlight (.derive 0) [], ready, inFlight .encb []].map State.statusWord = [1, 2, 3] := by decide +kernel

/-- V12.7: a write to FAULT clears nothing and adds ACCESS. -/
theorem test_fault_write :
    (regWrite Config.standard .fault 0 { State.reset with faultBits := 0x04 }).faultBits = 0x14 := by decide +kernel

/-- V12.9, V12.10, V12.12: the last byte of KEYBUF, the first past it, and OBUF. -/
theorem test_byteWrite_edges :
    [(Buffer.keybuf, 71), (.keybuf, 72), (.obuf, 0)].map (fun c =>
      (fun t : State => (t.keybuf, t.faultBits)) (byteWrite Config.standard c.1 c.2 0xaa State.reset)) =
      [([(71, 0xaa)], 0), ([], 0x10), ([], 0x10)] := by decide +kernel

/-- V12.16: a read past the end of OBUF. -/
theorem test_byteRead_pastEnd :
    (fun t : State => (t.reply, t.faultBits)) (byteRead Config.standard .obuf 4096 State.reset) =
      (some (.byte 0x00), 0x10) := by decide +kernel

/-- V12.18: address 0x00010 is undefined. -/
theorem test_bus_undefined : (BusAccess.readWord 0x00010).toAction = .strayRead .word := by decide

/-- V13.2: a reset that strikes `ECBE 16` takes the first 16 bytes of OBUF and leaves the rest. -/
theorem test_reset_abandonsOutput :
    (fun t : State => (t.obuf, t.busy, t.sv, t.result, t.faultBits))
      { inFlight (.ecbe 16) [] with obuf := [(0, 0x32), (15, 0x03), (16, 0x37)], result := 0x01, faultBits := 0x1f }.applyReset =
      ([(16, 0x37)], false, false, 0x00, 0) := by decide +kernel

/-- R67: the expansion of `KEY "abc"`. -/
theorem test_script_key :
    (ScriptItem.keyText "abc").expand = [.line (.wkey 0 0x61), .line (.wkey 1 0x62), .line (.wkey 2 0x63)] := by decide

/-- What a finished run of a script leaves of interest: the lines left, the result, and IBUF. -/
def scriptEnd (o : Host.Outcome ScriptRun Fault Refusal) : Option (Nat × List Byte × Memory) :=
  match o with
  | .next r => some (r.todo.length, r.result, r.machine.ibuf)
  | .fault _ => none
  | .refused _ => none

/-- R67: `OUT 2` gives the bytes of OBUF, and `COPYBACK 2` puts them into IBUF. -/
theorem test_script_moves :
    scriptEnd (ScriptRun.run Config.standard (List.replicate 6 .host)
      (ScriptRun.start [.out 2, .copyback 2] { ready with obuf := [(0, 0x32), (1, 0x4e)] })) =
      some (0, [0x32, 0x4e], [(0, 0x32), (1, 0x4e)]) := by decide +kernel

/-- R67: a WAIT goes on reading while `BUSY` = 1, and ends with the first read after the core's turn. -/
theorem test_script_wait :
    [[Turn.host, .host, .host], [.host, .core], [.host, .core, .host], [.core, .host]].map (fun turns =>
      (scriptEnd (ScriptRun.run Config.standard turns (ScriptRun.start [.wait] (inFlight (.ecbe 7) [])))).map Prod.fst) =
      [some 1, some 1, some 0, some 0] := by decide +kernel

/-! ## A placed command is the next step, from reset (log entry 8) -/

theorem test_fetch_commands :
    [0x01000000, 0x02000000, 0x03000000, 0x04000000, 0x05000000].map (fun w =>
      (after (step (State.reset.withFetchWord 32 w))).map (fun t => (t.busy, t.result, t.faultBits))) =
      List.replicate 5 (some (false, 0x00, 0)) := by decide +kernel

/-- A word that is no command is refused by the port. -/
theorem test_fetch_illegal :
    (after (step (State.reset.withFetchWord 32 0xff000000))).map (fun t => (t.busy, t.faultBits)) = some (false, 0x01) := by
  decide +kernel

/-! ## Witnesses: for each obligation with hypotheses, data that meets all of them, at the edges of its ranges -/

theorem test_witness_DecodeOfEncode : Instr.wellFormed (.ecbd 65535) = true ∧ Instr.wellFormed (.derive 0) = true := by decide

theorem test_witness_DecodedCommandReencodes : decode 0x0100ffff = .ok (.derive 65535) := by decide

theorem test_witness_DecodeFollowsOpcodeMap :
    (0x0100ffff : Word) &&& 0xFFFF0000 = 0x01000000 ∧ (0x02000000 : Word) &&& 0xFFFFFFFF = 0x02000000 ∧
    (0x03000000 : Word) &&& 0xFFFFFFFF = 0x03000000 ∧ (0x04000000 : Word) &&& 0xFFFF0000 = 0x04000000 ∧
    (0x0500ffff : Word) &&& 0xFFFF0000 = 0x05000000 ∧
    ((0x02000001 : Word) &&& 0xFFFF0000 ≠ 0x01000000 ∧ (0x02000001 : Word) &&& 0xFFFFFFFF ≠ 0x02000000 ∧
      (0x02000001 : Word) &&& 0xFFFFFFFF ≠ 0x03000000 ∧ (0x02000001 : Word) &&& 0xFFFF0000 ≠ 0x04000000 ∧
      (0x02000001 : Word) &&& 0xFFFF0000 ≠ 0x05000000) := by decide

/-- Two commands of one row, and the word of a third row that matches neither pattern. -/
theorem test_witness_CommandPatternsDisjoint :
    (0x04000010 : Word) &&& maskOf (.ecbe 0) = matchOf (.ecbe 0) ∧ (0x04000010 : Word) &&& maskOf (.ecbe 16) = matchOf (.ecbe 16) ∧
    (0x05000010 : Word) &&& maskOf (.ecbe 16) ≠ matchOf (.ecbe 16) := by decide

/-- Under the zero schedule each round only exchanges the halves (V5.7). -/
theorem test_witness_EncryptRecurrence :
    ∃ x : Nat → Block, ∀ r : Fin 16, x (r + 1) =
      ⟨(x r).r ^^^ feistelF zeroSchedule.s ((x r).l ^^^ zeroSchedule.p[r.val]), (x r).l ^^^ zeroSchedule.p[r.val]⟩ :=
  ⟨fun k => if k % 2 = 0 then ⟨0x01234567, 0x89abcdef⟩ else ⟨0x89abcdef, 0x01234567⟩, by decide +kernel⟩

theorem test_witness_DecryptReadsTableBackwards :
    ∃ q : KeySchedule, (∀ m : Fin 18, q.p[m] = Config.initConstant.p[17 - m.val]) ∧ q.s = Config.initConstant.s :=
  ⟨{ p := Config.initConstant.p.reverse, s := Config.initConstant.s }, fun m => by simp, rfl⟩

/-- A state whose KEYBUF holds the 100 bytes of V8.3. -/
def longSecret : State := { State.reset with keybuf := (List.range 100).map (fun k => (k, BitVec.ofNat 8 (7 * k + 3))) }

/-- A state whose KEYBUF holds `abc` 24 times (V8.2), and its first three bytes are the secret `abc`. -/
def abcSecret : State := { State.reset with keybuf := bytesFromZero (List.replicate 24 (asciiBytes "abc")).flatten }

/-- A state whose KEYBUF holds 72 bytes of 0x00 (V8.1). -/
def zeroSecret : State := { State.reset with keybuf := bytesFromZero (List.replicate 72 0x00) }

theorem test_witness_ChunksCycleTheSecret : State.SecretWritten abcSecret 72 ∧ State.SecretWritten abcSecret 3 := by
  unfold State.SecretWritten; decide +kernel

/-- For every finished schedule and every place in step 3 there are a schedule and a running block as the statement wants them. -/
theorem test_witness_RoundKeysFromChainedEncryptions (f init : KeySchedule) (m : Fin 9) :
    ∃ (q : KeySchedule) (prev : Block),
      (∀ i : Fin 18, q.p[i] = if i.val < 2 * m.val then f.p[i] else init.p[i] ^^^ chunk (fun _ => 0) i.val) ∧ q.s = init.s ∧
      (m.val = 0 → prev = ⟨0, 0⟩) ∧
      (∀ h : 0 < m.val, prev = ⟨f.p[2 * m.val - 2], f.p[2 * m.val - 1]⟩) := by
  obtain ⟨p, hp⟩ : ∃ x : Vector Word 18, ∀ i : Fin 18,
      x[i] = if i.val < 2 * m.val then f.p[i] else init.p[i] ^^^ chunk (fun _ => 0) i.val :=
    ⟨Vector.ofFn fun i => if i.val < 2 * m.val then f.p[i] else init.p[i] ^^^ chunk (fun _ => 0) i.val,
      fun i => by simp only [Fin.getElem_fin, Vector.getElem_ofFn]⟩
  refine ⟨⟨p, init.s⟩, ?_⟩
  by_cases hm : 0 < m.val
  · exact ⟨⟨f.p[2 * m.val - 2], f.p[2 * m.val - 1]⟩, hp, rfl, fun h => by omega, fun _ => rfl⟩
  · exact ⟨⟨0, 0⟩, hp, rfl, fun _ => rfl, fun h => absurd h hm⟩

/-- The same for every place in step 4. -/
theorem test_witness_TableWordsFromChainedEncryptions (f init : KeySchedule) (t : Fin 4) (m : Fin 128) :
    ∃ (q : KeySchedule) (prev : Block),
      q.p = f.p ∧
      (∀ (u : Fin 4) (j : Fin 256), q.s[u][j] =
        if 256 * u.val + j.val < 256 * t.val + 2 * m.val then f.s[u][j] else init.s[u][j]) ∧
      (t.val = 0 → m.val = 0 → prev = ⟨f.p[16], f.p[17]⟩) ∧
      (∀ h : 0 < t.val, m.val = 0 → prev = ⟨f.s[t.val - 1][254], f.s[t.val - 1][255]⟩) ∧
      (∀ h : 0 < m.val, prev = ⟨f.s[t][2 * m.val - 2], f.s[t][2 * m.val - 1]⟩) := by
  obtain ⟨tables, htables⟩ : ∃ x : Vector (Vector Word 256) 4, ∀ (u : Fin 4) (j : Fin 256), x[u][j] =
      if 256 * u.val + j.val < 256 * t.val + 2 * m.val then f.s[u][j] else init.s[u][j] :=
    ⟨Vector.ofFn fun u : Fin 4 => Vector.ofFn fun j : Fin 256 =>
      if 256 * u.val + j.val < 256 * t.val + 2 * m.val then f.s[u][j] else init.s[u][j], fun u j => by simp only [Fin.getElem_fin, Vector.getElem_ofFn]⟩
  refine ⟨⟨f.p, tables⟩, ?_⟩
  by_cases hm : 0 < m.val
  · exact ⟨⟨f.s[t][2 * m.val - 2], f.s[t][2 * m.val - 1]⟩, rfl, htables, fun _ h => by omega, fun _ h => by omega, fun _ => rfl⟩
  · by_cases ht : 0 < t.val
    · exact ⟨⟨f.s[t.val - 1][254], f.s[t.val - 1][255]⟩, rfl, htables, fun h => by omega, fun _ _ => rfl, fun h => absurd h hm⟩
    · exact ⟨⟨f.p[16], f.p[17]⟩, rfl, htables, fun _ _ => rfl, fun h => absurd h ht, fun h => absurd h hm⟩

theorem test_witness_DeriveCompletes : (72 : Nat) ≤ 72 ∧ (0 : Nat) ≤ 72 := by decide

theorem test_witness_DeriveIgnoresEarlierState :
    State.SecretWritten abcSecret 72 ∧
    ∀ k < 72, Memory.lookup { ready with keybuf := abcSecret.keybuf, draws := 9 }.keybuf k = Memory.lookup abcSecret.keybuf k := by
  unfold State.SecretWritten; decide +kernel

theorem test_witness_OnlyFirst72BytesMatter :
    (100 : Nat) ≤ { Config.standard with keyMax := 100 }.keyMax ∧ State.SecretWritten longSecret 100 := by
  unfold State.SecretWritten; decide +kernel

theorem test_witness_RepeatedSecretSameSchedule :
    24 * 3 ≤ 72 ∧ State.SecretWritten abcSecret 3 ∧
    ∀ k < 24 * 3, Memory.lookup abcSecret.keybuf k = Memory.lookup abcSecret.keybuf (k % 3) := by
  unfold State.SecretWritten; decide +kernel

theorem test_witness_EmptySecretIsAllZeroSecret : ∀ k < 72, Memory.lookup zeroSecret.keybuf k = some 0x00 := by decide +kernel

/-- `BLOWFISH` twice in IBUF (V9.1). -/
def twoBlocks : State := { ready with ibuf := bytesFromZero (blowfish ++ blowfish) }

/-- The block `BLOWFISH` (K8). -/
def blowfishBlock : Block := ⟨0x424c4f57, 0x46495348⟩

theorem test_witness_BlockCommandsComplete :
    Memory.HoldsBlock twoBlocks.ibuf 0 blowfishBlock ∧ ((Instr.decb = .encb ∧ dec = enc) ∨ (Instr.decb = .decb ∧ dec = dec)) ∧
    ((Instr.encb = .encb ∧ enc = enc) ∨ (Instr.encb = .decb ∧ enc = dec)) := by
  refine ⟨?_, .inr ⟨rfl, rfl⟩, .inl ⟨rfl, rfl⟩⟩
  unfold Memory.HoldsBlock; decide +kernel

theorem test_witness_BlockCommandsInvert :
    Memory.HoldsBlock twoBlocks.ibuf 0 blowfishBlock ∧ ∃ t u : State, exec .encb twoBlocks = .next t ∧
      u.sched = twoBlocks.sched ∧ ∀ a < 8, Memory.lookup u.ibuf a = Memory.lookup t.obuf a := by
  refine ⟨by unfold Memory.HoldsBlock; decide +kernel, ?_⟩
  exact ⟨(transformBlock enc 0 twoBlocks).finish codeOk,
    { twoBlocks with ibuf := ((transformBlock enc 0 twoBlocks).finish codeOk).obuf }, rfl, rfl, fun _ _ => rfl⟩

theorem test_witness_EcbCommandsComplete :
    4096 % 8 = 0 ∧ 4096 ≤ 4096 ∧ (1 : Nat) < 16 / 8 ∧ Memory.HoldsBlock twoBlocks.ibuf (8 * 1) blowfishBlock ∧
    Memory.HoldsBlock twoBlocks.ibuf (16 - 8) blowfishBlock ∧
    ((Instr.ecbd 16 = .ecbe 16 ∧ dec = enc) ∨ (Instr.ecbd 16 = .ecbd 16 ∧ dec = dec)) := by
  refine ⟨rfl, Nat.le_refl _, by decide, ?_, ?_, .inr ⟨rfl, rfl⟩⟩ <;> unfold Memory.HoldsBlock <;> decide +kernel

theorem test_witness_BadLengthChangesNothingElse : 7 % 8 ≠ 0 ∧ 4095 % 8 ≠ 0 := by decide

theorem test_witness_EqualBlocksGiveEqualBlocks :
    State.InputWritten twoBlocks 16 ∧ 0 < 16 / 8 ∧ 1 < 16 / 8 ∧
    ∀ j < 8, Memory.lookup twoBlocks.ibuf (8 * 0 + j) = Memory.lookup twoBlocks.ibuf (8 * 1 + j) := by
  unfold State.InputWritten; decide +kernel

theorem test_witness_EcbCommandsInvert :
    State.InputWritten twoBlocks 8 ∧ ∃ t u : State, exec (.ecbe 8) twoBlocks = .next t ∧
      u.sched = twoBlocks.sched ∧ ∀ a < 8, Memory.lookup u.ibuf a = Memory.lookup t.obuf a := by
  refine ⟨by unfold State.InputWritten; decide +kernel, ?_⟩
  exact ⟨(ecbLoop enc 8 twoBlocks).finish codeOk, { twoBlocks with ibuf := ((ecbLoop enc 8 twoBlocks).finish codeOk).obuf },
    rfl, rfl, fun _ _ => rfl⟩

theorem test_witness_EcbOutputIsDetermined :
    State.InputWritten twoBlocks 16 ∧ { twoBlocks with l := 5, draws := 3 }.sched = twoBlocks.sched ∧
    ∀ a < 16, Memory.lookup { twoBlocks with l := 5, draws := 3 }.ibuf a = Memory.lookup twoBlocks.ibuf a :=
  ⟨by unfold State.InputWritten; decide +kernel, rfl, fun _ _ => rfl⟩

/-- Each host action can stand at the head of the order, with the core idle and with a command in flight. -/
theorem test_witness_hostActions :
    [HostAction.regRead .status, .regRead .result, .regRead .fault, .regRead .cmd, .regWrite .status 1, .regWrite .result 1,
      .regWrite .fault 1, .strayRead .word, .strayRead .byte, .strayWrite .word, .strayWrite .byte, .reset].all (fun a =>
      decide ((readyFor [.host a]).events = .host a :: []) && decide ((inFlight .encb [.host a]).events = .host a :: [])) = true := by
  decide +kernel

/-- The clauses of ByteWrites at both sides of each edge: what the machine does there is what its clause says. -/
theorem test_witness_ByteWrites :
    [(Buffer.keybuf, 71), (.keybuf, 72), (.ibuf, 4095), (.ibuf, 4096), (.obuf, 0)].map (fun c =>
      (after (step (readyFor [.host (.byteWrite c.1 c.2 0x55)]))).map (fun t =>
        (t.faultBits, Memory.lookup t.keybuf 71, Memory.lookup t.ibuf 4095))) =
      [some (0, some 0x55, none), some (0x10, none, none), some (0, none, some 0x55), some (0x10, none, none),
        some (0x10, none, none)] ∧
    (after (step (inFlight .encb [.host (.byteWrite .keybuf 71 0x55)]))).map (fun t => (t.faultBits, t.keybuf)) =
      some (0x02, []) := by decide +kernel

/-- The clauses of ByteReads at both sides of each edge, written and not, idle and busy. -/
theorem test_witness_ByteReads :
    [(Buffer.keybuf, 71), (.keybuf, 72), (.ibuf, 4095), (.ibuf, 4096), (.obuf, 4095), (.obuf, 4096)].map (fun c =>
      (after (step (readyFor [.host (.byteRead c.1 c.2)]))).map (fun t => t.faultBits)) =
      [some 0, some 0x10, some 0, some 0x10, some 0, some 0x10] ∧
    (after (step { readyFor [.host (.byteRead .obuf 4096)] with obuf := [(4095, 0x77)] })).map (fun t => (t.faultBits, t.reply)) =
      some (0x10, some (.byte 0)) ∧
    (after (step { readyFor [.host (.byteRead .obuf 4095)] with obuf := [(4095, 0x77)] })).map (fun t => (t.reply, t.draws)) =
      some (some (.byte 0x77), 0) ∧
    (after (step (readyFor [.host (.byteRead .keybuf 71)]))).map (fun t => (t.faultBits, t.draws)) = some (0, 1) ∧
    (after (step { inFlight .encb [.host (.byteRead .obuf 4095)] with obuf := [(4095, 0x77)] })).map (fun t => (t.faultBits, t.draws)) =
      some (0, 1) := by decide +kernel

theorem test_witness_FlatAddressMap :
    (0xFFFF : Nat) < 0x10000 ∧ ((0x10 : Nat) ≠ 0x0 ∧ (0x10 : Nat) ≠ 0x4 ∧ (0x10 : Nat) ≠ 0x8 ∧ (0x10 : Nat) ≠ 0xC) ∧
    ((0xFFFF : Nat) < 0x10000 ∨ (0x40000 : Nat) ≤ 0xFFFF) ∧ ((0x40000 : Nat) < 0x10000 ∨ (0x40000 : Nat) ≤ 0x40000) ∧
    ((Buffer.keybuf = .keybuf ∧ 72 ≤ 72) ∨ (Buffer.keybuf = .ibuf ∧ 4096 ≤ 72) ∨ (Buffer.keybuf = .obuf ∧ 4096 ≤ 72)) := by decide

/-- The clauses of CommandIssue at both sides of each edge: the words, and the faults that step sets with and without a schedule. -/
theorem test_witness_CommandIssue :
    decode 0x01000048 = .ok (.derive 72) ∧ decode 0x01000049 = .ok (.derive 73) ∧ decode 0x04001000 = .ok (.ecbe 4096) ∧
    decode 0x05001001 = .ok (.ecbd 4097) ∧ decode 0x06000000 = .error .undefinedOpcode ∧
    [(0x01000048 : Word), 0x01000049, 0x04001000, 0x05001001, 0x06000000].map (fun w =>
      ((after (step (readyFor [.host (.regWrite .cmd w)]))).map (fun t => (t.busy, t.faultBits)),
        (after (step (resetFor [.host (.regWrite .cmd w)]))).map (fun t => (t.busy, t.faultBits)))) =
      [(some (true, 0), some (true, 0)), (some (false, 0x08), some (false, 0x08)), (some (true, 0), some (false, 0x04)),
        (some (false, 0x08), some (false, 0x08)), (some (false, 0x01), some (false, 0x01))] := by decide +kernel

theorem test_witness_CompleteRunsCommandInFlight :
    (inFlight .encb [.complete]).events = .complete :: [] ∧ (inFlight .encb [.complete]).busy = true ∧
    (readyFor [.complete]).busy = false := by decide +kernel

theorem test_witness_StepRunsDecodedCommand :
    decode (BitVec.ofNat 32 0x05000010) = .ok (.ecbd 16) ∧ 0x05000010 < 2 ^ 32 ∧ Instr.inRange Config.standard (.ecbd 16) = true ∧
    (readyFor [.host (.regWrite .cmd 0x05000010), .complete]).busy = false ∧
    (readyFor [.host (.regWrite .cmd 0x05000010), .complete]).sv = true := by decide +kernel

/-- V13.2 to V13.5: a reset with the core idle and with each command in flight, and power-on. -/
theorem test_witness_ResetEffect :
    [Instr.derive 8, .encb, .decb, .ecbe 16, .ecbd 16].map (fun i =>
      (after (step { inFlight i [.host .reset] with obuf := [(7, 1), (8, 2), (15, 3), (16, 4)] })).map (fun t =>
        t.obuf.map Prod.fst)) =
      [some [7, 8, 15, 16], some [8, 15, 16], some [8, 15, 16], some [16], some [16]] ∧
    (after (step { readyFor [.host .reset] with obuf := [(7, 1)] })).map (fun t => t.obuf) = some [(7, 1)] ∧
    (readyFor [.powerOn]).events = .powerOn :: [] := by decide +kernel

theorem test_witness_CanonicalFormUnique :
    Memory.wf [(3, 0x01), (9, 0x02)] ∧ Memory.wf (Memory.write [(9, 0x02)] 3 0x01) := by decide

/-- A command in flight with a bus read, its completion and a script to come meets the invariant, and so does reset. -/
theorem test_witness_Inv :
    State.Inv Config.standard (inFlight (.ecbe 4096) [.bus (.readByte 0x30000), .complete, .host (.regRead .status)]) :=
  { keybuf_good := by decide +kernel
    ibuf_good := by decide +kernel
    obuf_good := by decide +kernel
    result_code := by decide +kernel
    flight := by decide +kernel }

theorem test_witness_StepKeepsInvariant :
    ∃ t : State, step (inFlight (.ecbe 4096) [.bus (.readByte 0x30000), .complete, .host (.regRead .status)]) = .next t := ⟨_, rfl⟩

/-- The invariant with a command in flight, and with none. -/
theorem test_witness_WaitEndsIdle :
    (State.Inv Config.standard (inFlight (.ecbe 4096) []) ∧ (inFlight (.ecbe 4096) []).busy = true) ∧
    State.Inv Config.standard ready ∧ ready.busy = false := by
  refine ⟨⟨?_, rfl⟩, ?_, rfl⟩
  all_goals
    exact { keybuf_good := by decide +kernel
            ibuf_good := by decide +kernel
            obuf_good := by decide +kernel
            result_code := by decide +kernel
            flight := by decide +kernel }

/-- An idle core, a secret of the largest size, an input of the largest size, and an OBUF whose first bytes have been written. -/
theorem test_witness_ScriptsMoveBytes :
    ready.busy = false ∧ (List.replicate 72 (0xaa : Byte)).length ≤ Config.standard.keyMax ∧
    (blowfish ++ blowfish).length ≤ Config.standard.bufMax ∧ 16 ≤ Config.standard.bufMax ∧
    ∀ k < 16, (Memory.lookup { ready with obuf := bytesFromZero (blowfish ++ blowfish) }.obuf k).isSome = true := by
  decide +kernel

/-- Parameters other than the defaults, at the edges that R7 allows. -/
theorem test_witness_EveryConfigurationKeepsInvariant :
    Config.Valid { init := zeroSchedule, keyMax := 65535, bufMax := 65528 } ∧
    Config.Valid { init := zeroSchedule, keyMax := 0, bufMax := 8 } := by decide +kernel

theorem test_witness_HostEventsAreTheirActions :
    (inFlight .encb [.bus (.writeWord 0x8 1)]).events = .bus (.writeWord 0x8 1) :: [] ∧
    (after (step (inFlight .encb [.bus (.writeWord 0x8 1)]))).map (fun t => t.faultBits) = some 0x02 := by decide +kernel

/-- A state with a valid schedule that a construction has made. -/
theorem test_witness_ValidScheduleIsFinished :
    ∃ s t : State, s.sv = true ∧ State.SchedFinished Config.standard s ∧ step s = .next t :=
  ⟨{ ready with sched := (buildSchedule Config.standard.init (fun _ => 0)).sched }, _, rfl, fun _ => ⟨_, rfl⟩, rfl⟩

/-- The first round key of schedule Z (V7.1) is not 0, so DERIVE changes a schedule of zeros. -/
theorem test_witness_ScheduleChangesOnlyByDeriveOrReset :
    ∃ t : State, step { State.reset with cur := .derive 0, busy := true } = .next t ∧
      t.sched ≠ { State.reset with cur := .derive 0, busy := true }.sched := by
  refine ⟨_, rfl, fun h => ?_⟩
  have h0 := congrArg (fun k : KeySchedule => k.p[0]) h
  revert h0
  decide +kernel

/-- `SV` falls at the acceptance of a DERIVE (V11.7) and rises at its completion. -/
theorem test_witness_SvWrittenOnlyByDeriveAndReset :
    (after (step (readyFor [.host (.regWrite .cmd 0x01000003)]))).map (fun t => t.sv) = some false ∧
    (after (step (inFlight (.derive 3) []))).map (fun t => t.sv) = some true := by decide +kernel

/-- FAULT = 0x04 stays set through the write of V12.7, which sets one bit more and drops its word. -/
theorem test_witness_FaultBits :
    (after (step { readyFor [.host (.regWrite .fault 0)] with faultBits := 0x04 })).map (fun t => t.faultBits) = some 0x14 ∧
    (0x04 : BitVec 5).getLsbD 2 = true ∧ (0x04 : BitVec 5).getLsbD 4 = false ∧ (0x14 : BitVec 5).getLsbD 4 = true := by
  decide +kernel

theorem test_witness_ResultWrittenOnlyAtCompletion :
    (after (step (inFlight (.ecbe 7) []))).map (fun t => t.result) = some 0x01 ∧ (inFlight (.ecbe 7) []).result = 0x00 := by
  decide +kernel

theorem test_witness_InputsWrittenOnlyByIdleHost :
    (after (step (readyFor [.bus (.writeByte 0x20007 0x99)]))).map (fun t => t.ibuf) = some [(7, 0x99)] ∧
    (readyFor [.bus (.writeByte 0x20007 0x99)]).ibuf = [] := by decide +kernel

theorem test_witness_CommandInFlightIsUndisturbed :
    (inFlight .encb [.bus (.writeByte 0x20007 0x99)]).events = .bus (.writeByte 0x20007 0x99) :: [] ∧
    (inFlight .encb [.bus (.writeByte 0x20007 0x99)]).busy = true := by decide +kernel

theorem test_witness_HostNeverTouchesCoreState : HostAction.regWrite .cmd 0x02000000 ≠ .reset := by decide

/-- Two states that differ in what the host cannot see. -/
theorem test_witness_HostCannotSeeHiddenState :
    { ready with l := 1, r := 2, sched := zeroSchedule, cur := .ecbe 8 }.hostSide = ready.hostSide ∧
    { ready with l := 1, r := 2, sched := zeroSchedule, cur := .ecbe 8 }.l ≠ ready.l := ⟨rfl, by decide +kernel⟩

/-- Two states that differ in what R34 leaves unspecified. -/
theorem test_witness_UndefinedRegistersNeverRead :
    { State.reset with l := 1, r := 2, sched := Config.initConstant, cur := .ecbe 8 }.defined = State.reset.defined ∧
    { State.reset with l := 1, r := 2, sched := Config.initConstant, cur := .ecbe 8 }.l ≠ State.reset.l := ⟨rfl, by decide +kernel⟩

theorem test_witness_UndefinedRegistersNeverRead_inv :
    State.Inv Config.standard { State.reset with l := 1, r := 2, sched := Config.initConstant, cur := .ecbe 8 } :=
  { keybuf_good := by decide +kernel
    ibuf_good := by decide +kernel
    obuf_good := by decide +kernel
    result_code := by decide +kernel
    flight := by decide +kernel }

end Sys2Proof.Tests
end

/-! ## The invariant of the machine with any parameters that R7 allows

Each outcome of a host action, of a completion step and of a reset keeps `State.Inv`; `StepEffect` says that a step has no
others. -/

namespace Sys2Proof

/-- The count of a decoded command fits the field `N` (R61, R62). -/
theorem decode_wellFormed {w : Word} {i : Instr} (h : decode w = .ok i) : i.wellFormed = true := by
  have hn : (nField w).toNat < 65536 := (nField w).isLt
  unfold decode at h
  split_ifs at h <;> cases h -- the five rows of R63, in order, are left
  · exact decide_eq_true hn
  · exact rfl
  · exact rfl
  · exact decide_eq_true hn
  · exact decide_eq_true hn

end Sys2Proof

namespace Sys2Proof.Machine

theorem State.reset_inv (cfg : Config) : State.Inv cfg State.reset where
  keybuf_good := Memory.nil_good _
  ibuf_good := Memory.nil_good _
  obuf_good := Memory.nil_good _
  result_code := .inl rfl
  flight := nofun

theorem State.Inv.setEvents {cfg : Config} {s : State} (h : State.Inv cfg s) (es : List Event) :
    State.Inv cfg (s.setEvents es) :=
  { h with }

/-- A reset strikes the command in flight and only forgets bytes of OBUF (R171). -/
theorem State.Inv.applyReset {cfg : Config} {s : State} (h : State.Inv cfg s) : State.Inv cfg s.applyReset where
  keybuf_good := h.keybuf_good
  ibuf_good := h.ibuf_good
  obuf_good := by
    show Memory.Good s.obufAfterReset cfg.bufMax
    unfold State.obufAfterReset
    split
    · exact Memory.forget_good _ h.obuf_good
    · exact h.obuf_good
  result_code := .inl rfl
  flight := nofun

/-- Power-on establishes the invariant from every state (R170). -/
theorem State.applyPowerOn_inv (cfg : Config) (s : State) : State.Inv cfg s.applyPowerOn where
  keybuf_good := Memory.nil_good _
  ibuf_good := Memory.nil_good _
  obuf_good := Memory.nil_good _
  result_code := .inl rfl
  flight := nofun

/-- A byte stored inside a buffer keeps that buffer in good order, and no other changes (R133). -/
theorem State.Inv.storeByte {cfg : Config} {s : State} (h : State.Inv cfg s) {b : Buffer} {k : Nat} (v : Byte)
    (inside : k < b.size cfg) : State.Inv cfg ((s.setBuffer b (Memory.write (s.buffer b) k v)).setReply none) := by
  cases b with
  | keybuf => exact { h with keybuf_good := Memory.write_good v h.keybuf_good inside }
  | ibuf => exact { h with ibuf_good := Memory.write_good v h.ibuf_good inside }
  | obuf => exact { h with obuf_good := Memory.write_good v h.obuf_good inside }

/-- Acceptance leaves `SV` as the command needs it: a DERIVE clears it, every other command was let in with `SV` = 1 (R136). -/
theorem accept_sv {i : Instr} {s : State} (sched : Instr.needsSchedule i = true → s.sv = true) :
    (accept i s).sv = Instr.needsSchedule i := by
  show (if Instr.needsSchedule i then s.sv else false) = _
  split
  · next hneeds => rw [hneeds, sched hneeds]
  · next hnot => simpa using hnot

/-- A host action keeps the invariant. -/
theorem HostEffect.inv {cfg : Config} {s t : State} {a : HostAction} (eff : HostEffect cfg s a t)
    (h : State.Inv cfg s) : State.Inv cfg t := by
  cases eff with
  | fault a b v => exact { h with }
  | read a v k => exact { h with }
  | store b k v _ _ inside => exact h.storeByte v inside
  | accepted w i word _ inRange sched =>
    exact { h with flight := fun _ => ⟨decode_wellFormed word, inRange, accept_sv sched⟩ }
  | reset => exact h.applyReset

/-- A completion step keeps the invariant: it leaves the inputs alone, stores inside OBUF and ends idle (R137). -/
theorem Effect.inv {cfg : Config} {s u : State} {i : Instr} (eff : Effect cfg s i u) (h8 : 8 ≤ cfg.bufMax)
    (h : State.Inv cfg s) : State.Inv cfg u where
  keybuf_good := eff.completed.keybuf ▸ h.keybuf_good
  ibuf_good := eff.completed.ibuf ▸ h.ibuf_good
  obuf_good := eff.obuf_good h8 h.obuf_good
  result_code := eff.completed.result
  flight := fun hbusy => by simp [eff.completed.busy] at hbusy

/-- Every step that answers a next state keeps the invariant. -/
theorem stepIn_inv {cfg : Config} {s t : State} (h8 : 8 ≤ cfg.bufMax) (h : State.Inv cfg s)
    (hstep : stepIn cfg s = .next t) : State.Inv cfg t := by
  cases stepIn_effect hstep with
  | idle rest _ _ => exact h.setEvents rest
  | command rest _ _ eff => exact eff.inv h8 (h.setEvents rest)
  | host e a rest _ _ eff => exact eff.inv (h.setEvents rest)
  | powerOn rest _ => exact State.applyPowerOn_inv cfg _

/-- A step answers a next state unless a command in flight is out of range (R136, R137). -/
theorem stepIn_next {cfg : Config} {s : State} (h : s.busy = true → Instr.inRange cfg s.cur = true) :
    ∃ t, stepIn cfg s = .next t := by
  unfold stepIn advanceMachine
  split
  · obtain ⟨t, ht, -⟩ := complete_next h
    exact ⟨t, ht⟩
  · next e rest _ =>
    cases e with
    | host a => exact ⟨_, rfl⟩
    | bus b => exact ⟨_, rfl⟩
    | complete =>
      obtain ⟨t, ht, -⟩ := complete_next (s := s.setEvents rest) h
      exact ⟨t, ht⟩
    | powerOn => exact ⟨_, rfl⟩

theorem State.Inv.inRange {cfg : Config} {s : State} (h : State.Inv cfg s) (hbusy : s.busy = true) :
    Instr.inRange cfg s.cur = true := by
  obtain ⟨-, inRange, -⟩ := h.flight hbusy
  exact inRange

/-- Settles O43: of the constraints of R7 the step needs only `BUF_MAX` ≥ 8, the one block of OBUF that ENCB and DECB store. -/
theorem everyConfigurationKeepsInvariant : Obligations.EveryConfigurationKeepsInvariant := by
  unfold Obligations.EveryConfigurationKeepsInvariant
  rintro cfg ⟨-, -, h8, -⟩
  refine ⟨State.reset_inv cfg, fun s h => ?_⟩
  obtain ⟨t, ht⟩ := stepIn_next h.inRange
  exact ⟨t, ht, stepIn_inv h8 h ht⟩

/-! ## The default parameters -/

/-- The defaults of R7 meet its constraints on the two sizes. -/
theorem standard_valid : Config.standard.Valid := by
  unfold Config.Valid
  rw [standard_keyMax, standard_bufMax]
  decide

/-- Settles O60: the sizes are those of D7 and D8, and `exec` and `step` are the configured machine at the defaults. -/
theorem standardConfigIsValid : Obligations.StandardConfigIsValid :=
  ⟨standard_valid, standard_keyMax, standard_bufMax, exec_eq_execIn, step_eq_stepIn⟩

end Sys2Proof.Machine

/-! ## The state: what each kind of step keeps, and what nothing reads

The statements about single state elements (R20 to R34, R170, R171) are read off what a step can do (`StepEffect`): each outcome of a
host action or of a command changes the element or leaves it alone, said once below. -/

namespace Sys2Proof.Machine

/-! ### The invariant with the default parameters -/

/-- Settles O41. -/
theorem invariantAtReset : Obligations.InvariantAtReset := State.reset_inv Config.standard

/-- Settles O42: it is the invariant of O43 at the defaults, whose one block of OBUF fits. -/
theorem stepKeepsInvariant : Obligations.StepKeepsInvariant := by
  unfold Obligations.StepKeepsInvariant
  intro s t hinv hstep
  obtain ⟨-, -, hblock, -⟩ := standard_valid
  exact stepIn_inv hblock hinv (step_eq_stepIn s ▸ hstep)

/-! ### What a host action leaves alone -/

/-- A host action that is not a reset leaves the schedule, OBUF and RESULT alone (R130). -/
theorem HostEffect.hostFrame {cfg : Config} {s t : State} {a : HostAction} (eff : HostEffect cfg s a t)
    (ha : a ≠ .reset) : State.HostFrame s t := by
  cases eff with
  | fault a b v => constructor <;> rfl
  | read a v k => constructor <;> rfl
  | store b k v _ writable _ =>
    cases b with
    | keybuf => constructor <;> rfl
    | ibuf => constructor <;> rfl
    | obuf => exact absurd rfl writable
  | accepted w i => constructor <;> rfl
  | reset => exact absurd rfl ha

/-- The host's way to `SV` is a reset or the acceptance of a DERIVE, and either clears it (R21). -/
theorem HostEffect.sv_cases {cfg : Config} {s t : State} {a : HostAction} (eff : HostEffect cfg s a t) :
    t.sv = s.sv ∨ (t.sv = false ∧ s.busy = false ∧ t.busy = true ∧ ∃ n, t.cur = .derive n) ∨
    (t.sv = false ∧ a = .reset) := by
  cases eff with
  | fault a b v => exact .inl rfl
  | read a v k => exact .inl rfl
  | store b k v => exact .inl (by cases b <;> rfl)
  | accepted w i word idle inRange sched =>
    cases i with
    | derive n => exact .inr (.inl ⟨rfl, idle, rfl, n, rfl⟩)
    | encb => exact .inl rfl
    | decb => exact .inl rfl
    | ecbe n => exact .inl rfl
    | ecbd n => exact .inl rfl
  | reset => exact .inr (.inr ⟨rfl, rfl⟩)

/-- If `SV` = 1 after a host action, it was before, and the schedule is still the same (R21). -/
theorem HostEffect.schedule_of_sv {cfg : Config} {s t : State} {a : HostAction} (eff : HostEffect cfg s a t)
    (ht : t.sv = true) : s.sv = true ∧ t.sched = s.sched := by
  cases eff with
  | fault a b v => exact ⟨ht, rfl⟩
  | read a v k => exact ⟨ht, rfl⟩
  | store b k v => cases b <;> exact ⟨ht, rfl⟩
  | accepted w i word idle inRange sched => exact ⟨sched ((accept_sv sched).symm.trans ht), rfl⟩
  | reset => cases ht

/-- Short of a reset, FAULT keeps its bits and gains at most the one of a protocol fault (R30, R152). -/
theorem HostEffect.faultBits_cases {cfg : Config} {s t : State} {a : HostAction} (eff : HostEffect cfg s a t)
    (ha : a ≠ .reset) : t.faultBits = s.faultBits ∨ ∃ b : FaultBit, t.faultBits = s.faultBits ||| b.mask := by
  cases eff with
  | fault a b v => exact .inr ⟨b, rfl⟩
  | read a v k => exact .inl rfl
  | store b k v => exact .inl (by cases b <;> rfl)
  | accepted w i => exact .inl rfl
  | reset => exact absurd rfl ha

/-- The host changes the input buffers by a byte write on an idle core only (R22, R23); a reset keeps them (R170). -/
theorem HostEffect.inputs_cases {cfg : Config} {s t : State} {a : HostAction} (eff : HostEffect cfg s a t) :
    (t.keybuf = s.keybuf ∧ t.ibuf = s.ibuf) ∨ (s.busy = false ∧ ∃ b k v, a = .byteWrite b k v) := by
  cases eff with
  | fault a b v => exact .inl ⟨rfl, rfl⟩
  | read a v k => exact .inl ⟨rfl, rfl⟩
  | store b k v idle => exact .inr ⟨idle, b, k, v, rfl⟩
  | accepted w i => exact .inl ⟨rfl, rfl⟩
  | reset => exact .inl ⟨rfl, rfl⟩

/-! ### Which event a step takes -/

/-- The core's turn is at the head of the order, or the order is at its end. -/
theorem CoreTurn.events {s : State} {rest : List Event} (turn : CoreTurn s rest) :
    s.events = [] ∨ s.events.head? = some .complete := by
  rcases turn with ⟨he, -⟩ | he
  · exact .inl he
  · exact .inr (by rw [he]; rfl)

/-- Only the host event `Reset` performs a reset: no flat address names one (R48). -/
theorem head_eq_reset {s : State} {e : Event} {a : HostAction} {rest : List Event} (next : s.events = e :: rest)
    (names : e = .host a ∨ ∃ b : BusAccess, e = .bus b ∧ b.toAction = a) (ha : a = .reset) :
    s.events.head? = some (.host .reset) := by
  rcases names with rfl | ⟨b, -, hb⟩
  · rw [next, ha]
    rfl
  · exact absurd (hb.trans ha) (toAction_ne_reset b)

/-- A flat access that is a byte write names a byte write (R48). -/
theorem toAction_eq_byteWrite {x : BusAccess} {b : Buffer} {k : Nat} {v : Byte} (h : x.toAction = .byteWrite b k v) :
    ∃ a w, x = .writeByte a w := by
  cases x with
  | readWord a => simp only [BusAccess.toAction] at h; split at h <;> cases h
  | writeWord a w => simp only [BusAccess.toAction] at h; split at h <;> cases h
  | readByte a => simp only [BusAccess.toAction] at h; split at h <;> cases h
  | writeByte a w => exact ⟨a, w, rfl⟩

/-! ### The schedule and `SV` -/

/-- A step with any parameters keeps the meaning of `SV` = 1: DERIVE makes a finished schedule, and nothing else sets `SV` or touches
the schedule while it is set (R21). -/
theorem stepIn_schedFinished {cfg : Config} {s t : State} (h : State.SchedFinished cfg s) (hstep : stepIn cfg s = .next t) :
    State.SchedFinished cfg t := by
  intro ht
  cases stepIn_effect hstep with
  | idle rest => exact h ht
  | command rest turn busy eff =>
    rcases eff.schedule with ⟨n, -, -, -, built⟩ | ⟨-, hsched, hsv⟩
    · exact ⟨_, built⟩
    · rw [hsched]
      exact h (hsv ▸ ht)
  | host e a rest next names eff =>
    obtain ⟨hsv, hsched⟩ := eff.schedule_of_sv ht
    rw [hsched]
    exact h hsv
  | powerOn rest => cases ht

/-- Settles O48: at reset `SV` = 0. -/
theorem validScheduleIsFinished : Obligations.ValidScheduleIsFinished := by
  unfold Obligations.ValidScheduleIsFinished
  exact ⟨nofun, fun s t h hstep => stepIn_schedFinished h (step_eq_stepIn s ▸ hstep)⟩

/-- Settles O49. -/
theorem scheduleChangesOnlyByDeriveOrReset : Obligations.ScheduleChangesOnlyByDeriveOrReset := by
  unfold Obligations.ScheduleChangesOnlyByDeriveOrReset
  intro s t hstep changed
  cases step_effect hstep with
  | idle rest => exact absurd rfl changed
  | command rest turn busy eff =>
    rcases eff.schedule with ⟨n, hcur, hsv, -⟩ | ⟨-, same, -⟩
    · exact .inl ⟨n, busy, hcur, hsv, turn.events⟩
    · exact absurd same changed
  | host e a rest next names eff =>
    by_cases ha : a = .reset
    · exact .inr (.inl (head_eq_reset next names ha))
    · exact absurd (eff.hostFrame ha).sched changed
  | powerOn rest next => exact .inr (.inr (by rw [next]; rfl))

/-- Settles O50. -/
theorem svWrittenOnlyByDeriveAndReset : Obligations.SvWrittenOnlyByDeriveAndReset := by
  unfold Obligations.SvWrittenOnlyByDeriveAndReset
  intro s t hstep changed
  cases step_effect hstep with
  | idle rest => exact absurd rfl changed
  | command rest turn busy eff =>
    rcases eff.schedule with ⟨n, hcur, hsv, -⟩ | ⟨-, -, same⟩
    · exact .inl ⟨hsv, busy, eff.completed.busy, ⟨n, hcur⟩, turn.events⟩
    · exact absurd same changed
  | host e a rest next names eff =>
    rcases eff.sv_cases with same | accepted | ⟨-, ha⟩
    · exact absurd same changed
    · exact .inr (.inl accepted)
    · exact .inr (.inr (.inl (head_eq_reset next names ha)))
  | powerOn rest next => exact .inr (.inr (.inr (by rw [next]; rfl)))

/-! ### FAULT, RESULT and the input buffers -/

/-- Settles O51: a host action only adds bits. -/
theorem faultBitsAreSticky : Obligations.FaultBitsAreSticky := by
  unfold Obligations.FaultBitsAreSticky
  intro s t j hstep hj noReset noPower
  cases step_effect hstep with
  | idle rest => exact hj
  | command rest turn busy eff => exact eff.completed.faultBits ▸ hj
  | host e a rest next names eff =>
    rcases eff.faultBits_cases (fun ha => noReset (head_eq_reset next names ha)) with same | ⟨b, added⟩
    · exact same ▸ hj
    · rw [added, BitVec.getLsbD_or]
      exact Bool.or_eq_true_iff.2 (.inl hj)
  | powerOn rest next => exact absurd (by rw [next]; rfl) noPower

/-- Settles O54. -/
theorem resultWrittenOnlyAtCompletion : Obligations.ResultWrittenOnlyAtCompletion := by
  unfold Obligations.ResultWrittenOnlyAtCompletion
  intro s t hstep changed
  cases step_effect hstep with
  | idle rest => exact absurd rfl changed
  | command rest turn busy eff => exact .inl ⟨busy, eff.completed.busy⟩
  | host e a rest next names eff =>
    by_cases ha : a = .reset
    · exact .inr (.inl (head_eq_reset next names ha))
    · exact absurd (eff.hostFrame ha).result changed
  | powerOn rest next => exact .inr (.inr (by rw [next]; rfl))

/-- Settles O55: a command keeps its inputs, and of the host's actions only a byte write on an idle core stores a byte. -/
theorem inputsWrittenOnlyByIdleHost : Obligations.InputsWrittenOnlyByIdleHost := by
  unfold Obligations.InputsWrittenOnlyByIdleHost
  intro s t hstep changed
  cases step_effect hstep with
  | idle rest => simp at changed
  | command rest turn busy eff => simp [eff.completed.keybuf, eff.completed.ibuf] at changed
  | host e a rest next names eff =>
    rcases eff.inputs_cases with ⟨hkey, hin⟩ | ⟨idle, b, k, v, rfl⟩
    · simp [hkey, hin] at changed
    · refine .inr ⟨idle, ?_⟩
      rw [next]
      rcases names with rfl | ⟨x, rfl, hx⟩
      · exact .inl ⟨b, k, v, rfl⟩
      · obtain ⟨a, w, rfl⟩ := toAction_eq_byteWrite hx
        exact .inr ⟨a, w, rfl⟩
  | powerOn rest next => exact .inl (by rw [next]; rfl)

/-! ### Reset -/

/-- Settles O39. -/
theorem resetValues : Obligations.ResetValues := by
  unfold Obligations.ResetValues
  exact ⟨rfl, rfl, rfl, rfl, fun b a => by cases b <;> exact Memory.lookup_nil a⟩

/-- A reset with the core idle keeps OBUF (R170). -/
theorem obufAfterReset_of_idle {s : State} (idle : s.busy = false) : s.obufAfterReset = s.obuf := by
  simp [State.obufAfterReset, idle]

/-- A reset that strikes a command forgets the bytes it was to write, and only those (R171). -/
theorem lookup_obufAfterReset_of_busy {s : State} {i : Instr} (busy : s.busy = true) (hcur : s.cur = i) (a : Nat) :
    Memory.lookup s.obufAfterReset a = if a < Instr.abandonedBytes i then none else Memory.lookup s.obuf a := by
  subst hcur
  simp [State.obufAfterReset, busy, Memory.lookup_forget]

/-- After power-on every byte of every buffer holds `any` (R170). -/
theorem lookup_applyPowerOn (s : State) (b : Buffer) (a : Nat) : Memory.lookup (s.applyPowerOn.buffer b) a = none := by
  cases b <;> exact Memory.lookup_nil a

/-- Power applied is the next step where the order says so. -/
theorem step_powerOn {s : State} {rest : List Event} (h : s.events = .powerOn :: rest) :
    step s = .next (s.setEvents rest).applyPowerOn := by
  unfold step advanceMachine
  rw [h]
  rfl

/-- Settles O38: OBUF after a reset is `State.obufAfterReset` of the state with the event taken off the order. -/
theorem resetEffect : Obligations.ResetEffect := by
  unfold Obligations.ResetEffect
  constructor
  · intro s rest next
    have struck {i : Instr} (busy : s.busy = true) (hcur : s.cur = i) :=
      lookup_obufAfterReset_of_busy (s := s.setEvents rest) busy hcur
    refine ⟨_, step_host next, rfl, rfl, rfl, rfl, rfl, rfl, rfl, ?idle, ?derive, ?block, ?ecb⟩
    case idle => exact fun idle => obufAfterReset_of_idle (s := s.setEvents rest) idle
    case derive => exact fun n busy hcur a => (struck busy hcur a).trans (if_neg (Nat.not_lt_zero a))
    case block => rintro busy (hcur | hcur) a <;> exact struck busy hcur a
    case ecb => rintro n busy (hcur | hcur) a <;> exact struck busy hcur a
  · exact fun s rest next => ⟨_, step_powerOn next, rfl, rfl, rfl, rfl, rfl, lookup_applyPowerOn _⟩

/-! ### The canonical form of a buffer -/

/-- An index before every listed one is not listed. -/
theorem Memory.lookup_eq_none_of_lt {m : Memory} {a : Nat} (h : ∀ c ∈ m, a < c.1) : Memory.lookup m a = none := by
  induction m with
  | nil => exact Memory.lookup_nil a
  | cons c rest ih =>
    obtain ⟨k, v⟩ := c
    obtain ⟨hk, hrest⟩ := List.forall_mem_cons.1 h
    rw [Memory.lookup_cons, if_neg (Nat.ne_of_lt hk), ih hrest]

/-- A canonical buffer lists nothing before its first index. -/
theorem Memory.first_le_of_lookup {k a : Nat} {v b : Byte} {rest : Memory} (hwf : Memory.wf ((k, v) :: rest))
    (ha : Memory.lookup ((k, v) :: rest) a = some b) : k ≤ a := by
  obtain ⟨hk, -⟩ := List.pairwise_cons.1 hwf
  by_contra hlt
  have before : ∀ c ∈ (k, v) :: rest, a < c.1 :=
    List.forall_mem_cons.2 ⟨Nat.not_le.1 hlt, fun c hc => Nat.lt_trans (Nat.not_le.1 hlt) (hk c hc)⟩
  rw [Memory.lookup_eq_none_of_lt before] at ha
  cases ha

theorem Memory.lookup_cons_self (k : Nat) (v : Byte) (rest : Memory) : Memory.lookup ((k, v) :: rest) k = some v :=
  if_pos rfl

/-- A buffer with a cell does not read like the empty one. -/
theorem Memory.eq_nil_of_lookup {m : Memory} (h : ∀ a, Memory.lookup m a = none) : m = [] := by
  cases m with
  | nil => rfl
  | cons c rest => cases (Memory.lookup_cons_self c.1 c.2 rest).symm.trans (h c.1)

/-- Canonical buffers that begin with the same cell and read alike read alike after it. -/
theorem Memory.lookup_tail_eq {k : Nat} {v : Byte} {rest rest' : Memory} (hwf : Memory.wf ((k, v) :: rest))
    (hwf' : Memory.wf ((k, v) :: rest'))
    (alike : ∀ a, Memory.lookup ((k, v) :: rest) a = Memory.lookup ((k, v) :: rest') a) (a : Nat) :
    Memory.lookup rest a = Memory.lookup rest' a := by
  by_cases ha : a = k
  · obtain ⟨hk, -⟩ := List.pairwise_cons.1 hwf
    obtain ⟨hk', -⟩ := List.pairwise_cons.1 hwf'
    rw [ha, Memory.lookup_eq_none_of_lt hk, Memory.lookup_eq_none_of_lt hk']
  · simpa [Memory.lookup_cons, ha] using alike a

/-- Settles O40, by induction on the list: buffers that read alike begin with the same cell, and their rests read alike. -/
theorem canonicalFormUnique : Obligations.CanonicalFormUnique := by
  unfold Obligations.CanonicalFormUnique
  intro m
  induction m with
  | nil => exact fun m' _ _ alike => (Memory.eq_nil_of_lookup fun a => (alike a).symm).symm
  | cons c rest ih =>
    obtain ⟨k, v⟩ := c
    intro m' hwf hwf' alike
    cases m' with
    | nil => exact Memory.eq_nil_of_lookup alike
    | cons c' rest' =>
      obtain ⟨k', v'⟩ := c'
      have first := (alike k).symm.trans (Memory.lookup_cons_self k v rest)
      have first' := (alike k').trans (Memory.lookup_cons_self k' v' rest')
      obtain rfl : k = k' := Nat.le_antisymm (Memory.first_le_of_lookup hwf first') (Memory.first_le_of_lookup hwf' first)
      obtain rfl : v' = v := Option.some.inj ((Memory.lookup_cons_self k v' rest').symm.trans first)
      rw [ih rest' hwf.of_cons hwf'.of_cons (Memory.lookup_tail_eq hwf hwf' alike)]

/-! ### What the host cannot see

`State.hostSide` blots out what the host has no path to. A host action on what is left of a state leaves the same as on the state
itself, so what it does and returns is a function of the host's side. -/

section
variable (cfg : Config) (s : State)

@[simp] theorem State.hostSide_sv : s.hostSide.sv = s.sv := rfl
@[simp] theorem State.hostSide_keybuf : s.hostSide.keybuf = s.keybuf := rfl
@[simp] theorem State.hostSide_busy : s.hostSide.busy = s.busy := rfl
@[simp] theorem State.hostSide_cur : s.hostSide.cur = if s.busy then s.cur else .derive 0 := rfl
@[simp] theorem State.hostSide_draws : s.hostSide.draws = s.draws := rfl
@[simp] theorem State.hostSide_events : s.hostSide.events = s.events := rfl
@[simp] theorem State.hostSide_reply : s.hostSide.reply = s.reply := rfl

theorem dropWrite_hostSide : s.hostSide.dropWrite = s.dropWrite.hostSide := by
  unfold State.dropWrite
  rw [apply_ite State.hostSide]
  rfl

theorem issue_hostSide (w : Word) : issue cfg w s.hostSide = (issue cfg w s).hostSide := by
  have checks (i : Instr) : refusalOf cfg i s.hostSide = refusalOf cfg i s := rfl
  unfold issue
  rw [apply_ite State.hostSide]
  cases decode w with
  | error e => rfl
  | ok i =>
    simp only [checks]
    cases refusalOf cfg i s <;> rfl

theorem byteRead_hostSide (b : Buffer) (k : Nat) : byteRead cfg b k s.hostSide = (byteRead cfg b k s).hostSide := by
  have contents : s.hostSide.buffer b = s.buffer b := by cases b <;> rfl
  unfold byteRead
  rw [apply_ite State.hostSide, apply_ite State.hostSide, contents]
  cases Memory.lookup (s.buffer b) k <;> rfl

theorem byteWrite_hostSide (b : Buffer) (k : Nat) (v : Byte) :
    byteWrite cfg b k v s.hostSide = (byteWrite cfg b k v s).hostSide := by
  unfold byteWrite
  rw [apply_ite State.hostSide, apply_ite State.hostSide, apply_ite State.hostSide]
  cases b <;> rfl

/-- A reset reads `CUR` only where it strikes the command in flight (R171). -/
theorem obufAfterReset_hostSide : s.hostSide.obufAfterReset = s.obufAfterReset := by
  cases hbusy : s.busy <;> simp [State.obufAfterReset, State.hostSide, hbusy]

theorem applyReset_hostSide : s.hostSide.applyReset.hostSide = s.applyReset.hostSide := by
  unfold State.applyReset
  rw [obufAfterReset_hostSide]
  rfl

/-- A host action but a reset does to the host's side of a state what it does to the state (R130). -/
theorem hostStep_hostSide {a : HostAction} (ha : a ≠ .reset) : hostStep cfg a s.hostSide = (hostStep cfg a s).hostSide := by
  have dropped : (s.hostSide.dropWrite).setReply none = ((s.dropWrite).setReply none).hostSide :=
    congrArg (State.setReply · none) (dropWrite_hostSide s)
  cases a with
  | regRead r => cases r <;> rfl
  | regWrite r w =>
    cases r with
    | cmd => exact congrArg (State.setReply · none) (issue_hostSide cfg s w)
    | status => exact dropped
    | result => exact dropped
    | fault => exact dropped
  | byteRead b k => exact byteRead_hostSide cfg s b k
  | byteWrite b k v => exact byteWrite_hostSide cfg s b k v
  | strayRead width => rfl
  | strayWrite width => exact dropped
  | reset => exact absurd rfl ha

end

/-- Two states that look alike to the host still do after the same host action. -/
theorem hostStep_hostSide_congr (cfg : Config) (a : HostAction) {s t : State} (h : s.hostSide = t.hostSide) :
    (hostStep cfg a s).hostSide = (hostStep cfg a t).hostSide := by
  by_cases ha : a = .reset
  · subst ha
    show s.applyReset.hostSide = t.applyReset.hostSide
    rw [← applyReset_hostSide, h, applyReset_hostSide]
  · rw [← hostStep_hostSide cfg s ha, h, hostStep_hostSide cfg t ha]

/-- Settles O58: what an action returns is on the host's side. -/
theorem hostCannotSeeHiddenState : Obligations.HostCannotSeeHiddenState := by
  unfold Obligations.HostCannotSeeHiddenState
  intro cfg a s t h
  have alike := hostStep_hostSide_congr cfg a h
  exact ⟨alike, by simpa using congrArg State.reply alike⟩

/-! ### What nothing reads before it is defined

`State.defined` is the host's side and the schedule while `SV` = 1. So a host action is O58 and `HostEffect.schedule_of_sv`; a command
that needs the schedule has it, and overwrites `L` and `R` or leaves them alone. -/

theorem State.defined_eq (s : State) :
    s.defined = s.hostSide.setSched (if s.sv then s.sched else State.reset.sched) := rfl

theorem State.defined_sched (s : State) : s.defined.sched = if s.sv then s.sched else State.reset.sched := rfl

theorem State.defined_setSched (s : State) : s.defined.setSched State.reset.sched = s.hostSide := rfl

/-- Two states agree in what is defined exactly if they look alike to the host and a valid schedule is the same in both. -/
theorem defined_eq_iff {s u : State} :
    s.defined = u.defined ↔ s.hostSide = u.hostSide ∧ (s.sv = true → s.sched = u.sched) := by
  constructor
  · intro h
    have alike : s.hostSide = u.hostSide := by rw [← State.defined_setSched, h, State.defined_setSched]
    have hsv : s.sv = u.sv := by simpa using congrArg State.sv alike
    have hsched := congrArg State.sched h
    rw [State.defined_sched, State.defined_sched, ← hsv] at hsched
    exact ⟨alike, fun valid => by simpa [valid] using hsched⟩
  · rintro ⟨alike, hsched⟩
    have hsv : s.sv = u.sv := by simpa using congrArg State.sv alike
    rw [State.defined_eq, State.defined_eq, alike, ← hsv, ite_congr rfl hsched fun _ => rfl]

theorem busy_of_hostSide {s u : State} (h : s.hostSide = u.hostSide) : s.busy = u.busy := by
  simpa using congrArg State.busy h

/-- The host's side holds the command in flight. -/
theorem cur_of_hostSide {s u : State} (h : s.hostSide = u.hostSide) (busy : s.busy = true) : s.cur = u.cur := by
  simpa [← busy_of_hostSide h, busy] using congrArg State.cur h

/-- With a command in flight and the same schedule, states that look alike to the host differ in `L` and `R` only. -/
theorem eq_setHalves_of_hostSide {s u : State} (h : s.hostSide = u.hostSide) (busy : s.busy = true) (hsched : s.sched = u.sched) :
    u = s.setHalves ⟨u.l, u.r⟩ :=
  calc u = ((u.hostSide.setHalves ⟨u.l, u.r⟩).setSched u.sched).setCur u.cur := rfl
    _ = ((s.hostSide.setHalves ⟨u.l, u.r⟩).setSched s.sched).setCur s.cur := by rw [h, hsched, cur_of_hostSide h busy]
    _ = s.setHalves ⟨u.l, u.r⟩ := rfl

/-- The first block of the loop overwrites `L` and `R`, and a loop over no block leaves them alone (R110). -/
theorem ecbLoop_finish_setHalves (t : KeySchedule → Block → Block) (n : Nat) (s : State) (b : Block) :
    ∃ b' : Block, (ecbLoop t n (s.setHalves b)).finish codeOk = ((ecbLoop t n s).finish codeOk).setHalves b' := by
  unfold ecbLoop
  cases List.range (n / 8) with
  | nil => exact ⟨b, rfl⟩
  | cons q rest => exact ⟨⟨_, _⟩, rfl⟩

/-- A command other than DERIVE carries a difference in `L` and `R` to nothing else. -/
theorem Effect.eq_setHalves {cfg : Config} {s u v : State} {i : Instr} {b : Block} (needs : Instr.needsSchedule i = true)
    (eff : Effect cfg s i u) (eff' : Effect cfg (s.setHalves b) i v) : ∃ b' : Block, v = u.setHalves b' := by
  cases eff with
  | derive n => cases needs
  | encb => cases eff'; exact ⟨⟨_, _⟩, rfl⟩
  | decb => cases eff'; exact ⟨⟨_, _⟩, rfl⟩
  | ecbe h8 =>
    cases eff' with
    | ecbe => exact ecbLoop_finish_setHalves enc _ s b
    | ecbeError bad => exact absurd h8 bad
  | ecbd h8 =>
    cases eff' with
    | ecbd => exact ecbLoop_finish_setHalves dec _ s b
    | ecbdError bad => exact absurd h8 bad
  | ecbeError bad =>
    cases eff' with
    | ecbe h8 => exact absurd h8 bad
    | ecbeError => exact ⟨b, rfl⟩
  | ecbdError bad =>
    cases eff' with
    | ecbd h8 => exact absurd h8 bad
    | ecbdError => exact ⟨b, rfl⟩

/-- The secret's stream is a function of KEYBUF and the draws (R82), so of the host's side. -/
theorem keyStream_of_hostSide {s u : State} (n : Nat) (h : s.hostSide = u.hostSide) : keyStream s n = keyStream u n := by
  have hkey : s.keybuf = u.keybuf := by simpa using congrArg State.keybuf h
  have hdraws : s.draws = u.draws := by simpa using congrArg State.draws h
  funext m
  simp only [keyStream, State.freeByte, hkey, hdraws]

theorem deriveEffect_hostSide (cfg : Config) (n : Nat) (s : State) :
    (deriveEffect cfg n s).hostSide = (((s.hostSide.setSv true).advance 72).finish codeOk).hostSide := by
  unfold deriveEffect
  generalize buildSchedule cfg.init (keyStream s n) = w
  rfl

/-- DERIVE from states that look alike to the host makes the same schedule and leaves them looking alike (R89(a)). -/
theorem deriveEffect_defined (cfg : Config) (n : Nat) {s u : State} (h : s.hostSide = u.hostSide) :
    (deriveEffect cfg n s).defined = (deriveEffect cfg n u).defined := by
  refine defined_eq_iff.2 ⟨?_, fun _ => ?_⟩
  · rw [deriveEffect_hostSide, h, deriveEffect_hostSide]
  · rw [deriveEffect_sched, deriveEffect_sched, keyStream_of_hostSide n h]

/-- DERIVE is the one command that needs no schedule (R136). -/
theorem eq_derive_of_not_needsSchedule {i : Instr} (h : Instr.needsSchedule i = false) : ∃ n, i = .derive n := by
  cases i with
  | derive n => exact ⟨n, rfl⟩
  | encb => cases h
  | decb => cases h
  | ecbe n => cases h
  | ecbd n => cases h

/-- A command in flight, under the invariant, reads nothing that is not defined (R17, R21). -/
theorem Effect.defined_eq {cfg : Config} {s u s' u' : State} (hinv : State.Inv cfg s) (busy : s.busy = true)
    (h : s.defined = u.defined) (eff : Effect cfg s s.cur s') (eff' : Effect cfg u u.cur u') : s'.defined = u'.defined := by
  obtain ⟨alike, hsched⟩ := defined_eq_iff.1 h
  obtain ⟨-, -, valid⟩ := hinv.flight busy
  rw [← cur_of_hostSide alike busy] at eff'
  cases needs : Instr.needsSchedule s.cur with
  | true =>
    rw [eq_setHalves_of_hostSide alike busy (hsched (valid.trans needs))] at eff'
    obtain ⟨b, rfl⟩ := eff.eq_setHalves needs eff'
    rfl
  | false =>
    obtain ⟨n, hcur⟩ := eq_derive_of_not_needsSchedule needs
    rw [hcur] at eff eff'
    cases eff
    cases eff'
    exact deriveEffect_defined cfg n alike

/-- The core's turn reads nothing that is not defined: with none in flight it does nothing (R137). -/
theorem complete_defined {cfg : Config} {s u s' u' : State} (hinv : State.Inv cfg s) (h : s.defined = u.defined)
    (hs : complete (execIn cfg) s = .next s') (hu : complete (execIn cfg) u = .next u') : s'.defined = u'.defined := by
  obtain ⟨alike, -⟩ := defined_eq_iff.1 h
  have hbusy := busy_of_hostSide alike
  rcases complete_cases hs with ⟨busy, eff⟩ | ⟨idle, rfl⟩
  · rcases complete_cases hu with ⟨-, eff'⟩ | ⟨idle, -⟩
    · exact eff.defined_eq hinv busy h eff'
    · rw [← hbusy, busy] at idle
      cases idle
  · rcases complete_cases hu with ⟨busy, -⟩ | ⟨-, rfl⟩
    · rw [← hbusy, idle] at busy
      cases busy
    · exact h

/-- Nor does a host action read anything that is not defined (R130). -/
theorem hostStep_defined (cfg : Config) (a : HostAction) {s u : State} (h : s.defined = u.defined) :
    (hostStep cfg a s).defined = (hostStep cfg a u).defined := by
  obtain ⟨alike, hsched⟩ := defined_eq_iff.1 h
  have alike' := hostStep_hostSide_congr cfg a alike
  refine defined_eq_iff.2 ⟨alike', fun valid => ?_⟩
  have valid' : (hostStep cfg a u).sv = true := by simpa [valid] using congrArg State.sv alike'.symm
  obtain ⟨before, same⟩ := (hostStep_effect cfg a s).schedule_of_sv valid
  obtain ⟨-, same'⟩ := (hostStep_effect cfg a u).schedule_of_sv valid'
  rw [same, same', hsched before]

/-- Power-on overwrites everything that the host's side blots out (R170). -/
theorem applyPowerOn_defined (s : State) : s.defined.applyPowerOn.defined = s.applyPowerOn.defined := rfl

theorem setEvents_defined (s : State) (es : List Event) : (s.setEvents es).defined = s.defined.setEvents es := rfl

/-- A step reads nothing that is not defined. -/
theorem stepIn_defined {cfg : Config} {s u s' u' : State} (hinv : State.Inv cfg s) (h : s.defined = u.defined)
    (hs : stepIn cfg s = .next s') (hu : stepIn cfg u = .next u') : s'.defined = u'.defined := by
  obtain ⟨alike, -⟩ := defined_eq_iff.1 h
  have hevents : s.events = u.events := by simpa using congrArg State.events alike
  unfold stepIn advanceMachine at hs hu
  rw [← hevents] at hu
  cases he : s.events with
  | nil =>
    rw [he] at hs hu
    exact complete_defined hinv h hs hu
  | cons e rest =>
    rw [he] at hs hu
    have hrest : (s.setEvents rest).defined = (u.setEvents rest).defined := by
      rw [setEvents_defined, h, setEvents_defined]
    cases e with
    | host a => cases hs; cases hu; exact hostStep_defined cfg a hrest
    | bus b => cases hs; cases hu; exact hostStep_defined cfg b.toAction hrest
    | complete => exact complete_defined (hinv.setEvents rest) hrest hs hu
    | powerOn => cases hs; cases hu; rw [← applyPowerOn_defined, hrest, applyPowerOn_defined]

/-- Settles O59. -/
theorem undefinedRegistersNeverRead : Obligations.UndefinedRegistersNeverRead := by
  unfold Obligations.UndefinedRegistersNeverRead
  intro s u hs hu h
  obtain ⟨s', hs'⟩ := stepIn_next hs.inRange
  obtain ⟨u', hu'⟩ := stepIn_next hu.inRange
  rw [step_eq_stepIn, step_eq_stepIn]
  exact ⟨s', u', hs', hu', stepIn_defined hs h hs' hu'⟩

end Sys2Proof.Machine

/-! ## Accesses to the registers and the buffers

The flat address map (R48), the step that an access takes (R130), and what a host action can reach while a command is in flight. -/

namespace Sys2Proof.Machine

/-! ### The flat address map -/

/-- A word access at a register's offset reaches that register (R48). -/
theorem regAt_offset (r : Reg) : regAt r.offset = some r := by
  cases r <;> decide

/-- No register lies at any other address (R48). -/
theorem regAt_eq_none {a : Nat} (h : ∀ r : Reg, a ≠ r.offset) : regAt a = none := by
  simpa [regAt] using ⟨(h .cmd).symm, (h .status).symm, (h .result).symm, (h .fault).symm⟩

/-- The three windows in the order of the map (R48). -/
theorem bufferAt_eq_ite (a : Nat) : bufferAt a =
    if 0x10000 ≤ a ∧ a < 0x20000 then some .keybuf
    else if 0x20000 ≤ a ∧ a < 0x30000 then some .ibuf
    else if 0x30000 ≤ a ∧ a < 0x40000 then some .obuf
    else none := by
  simp only [bufferAt, List.find?_cons, List.find?_nil, Buffer.base]
  split_ifs <;> simp [*]

/-- A byte access in a buffer's window reaches that buffer, since the windows are disjoint (R48). -/
theorem bufferAt_base_add (b : Buffer) {k : Nat} (h : k < 0x10000) : bufferAt (b.base + k) = some b := by
  rw [bufferAt_eq_ite]
  cases b with
  | keybuf => exact if_pos (by rw [Buffer.base]; omega)
  | ibuf => rw [Buffer.base, if_neg (by omega), if_pos (by omega)]
  | obuf => rw [Buffer.base, if_neg (by omega), if_neg (by omega), if_pos (by omega)]

/-- Below and above the three windows there is no buffer (R48). -/
theorem bufferAt_eq_none {a : Nat} (h : a < 0x10000 ∨ 0x40000 ≤ a) : bufferAt a = none := by
  rw [bufferAt_eq_ite, if_neg (by omega), if_neg (by omega), if_neg (by omega)]

theorem toAction_word_register (r : Reg) (w : Word) :
    (BusAccess.readWord r.offset).toAction = .regRead r ∧ (BusAccess.writeWord r.offset w).toAction = .regWrite r w := by
  simp only [BusAccess.toAction, regAt_offset, and_self]

theorem toAction_word_stray {a : Nat} (w : Word) (h : ∀ r : Reg, a ≠ r.offset) :
    (BusAccess.readWord a).toAction = .strayRead .word ∧ (BusAccess.writeWord a w).toAction = .strayWrite .word := by
  simp only [BusAccess.toAction, regAt_eq_none h, and_self]

theorem toAction_byte_window (b : Buffer) {k : Nat} (v : Byte) (h : k < 0x10000) :
    (BusAccess.readByte (b.base + k)).toAction = .byteRead b k ∧
    (BusAccess.writeByte (b.base + k) v).toAction = .byteWrite b k v := by
  simp only [BusAccess.toAction, bufferAt_base_add b h, Nat.add_sub_cancel_left, and_self]

theorem toAction_byte_stray {a : Nat} (v : Byte) (h : a < 0x10000 ∨ 0x40000 ≤ a) :
    (BusAccess.readByte a).toAction = .strayRead .byte ∧ (BusAccess.writeByte a v).toAction = .strayWrite .byte := by
  simp only [BusAccess.toAction, bufferAt_eq_none h, and_self]

/-- A read past a buffer's end is answered as one of an undefined address (R134, R135). -/
theorem hostStep_byteRead_beyond {cfg : Config} {b : Buffer} {k : Nat} (s : State) (h : b.size cfg ≤ k) :
    hostStep cfg (.byteRead b k) s = hostStep cfg (.strayRead .byte) s :=
  if_pos h

/-- So is a write past a buffer's end: both check `BUSY` first (R133, R135). -/
theorem hostStep_byteWrite_beyond {cfg : Config} {b : Buffer} {k : Nat} (v : Byte) (s : State) (h : b.size cfg ≤ k) :
    hostStep cfg (.byteWrite b k v) s = hostStep cfg (.strayWrite .byte) s := by
  show byteWrite cfg b k v s = s.dropWrite.setReply none
  unfold byteWrite State.dropWrite
  cases s.busy with
  | true => rfl
  | false => simp [h]

/-- Settles O32: clause by clause, a register's offset, a window's base and a buffer's size stand for the numerals. -/
theorem flatAddressMap : Obligations.FlatAddressMap := by
  unfold Obligations.FlatAddressMap
  refine ⟨fun w => ?_, fun k v hk => ?_, fun a w h0 h4 h8 hC => ?_, fun a v h => toAction_byte_stray v h, fun s b k v h => ?_⟩
  · obtain ⟨readCmd, writeCmd⟩ := toAction_word_register .cmd w
    obtain ⟨readStatus, writeStatus⟩ := toAction_word_register .status w
    obtain ⟨readResult, writeResult⟩ := toAction_word_register .result w
    exact ⟨readCmd, writeCmd, readStatus, writeStatus, readResult, writeResult, toAction_word_register .fault w⟩
  · obtain ⟨readKeybuf, writeKeybuf⟩ := toAction_byte_window .keybuf v hk
    obtain ⟨readIbuf, writeIbuf⟩ := toAction_byte_window .ibuf v hk
    exact ⟨readKeybuf, writeKeybuf, readIbuf, writeIbuf, toAction_byte_window .obuf v hk⟩
  · refine toAction_word_stray w fun r => ?_
    cases r with
    | cmd => exact h0
    | status => exact h4
    | result => exact h8
    | fault => exact hC
  · have beyond : b.size Config.standard ≤ k := by
      rcases h with ⟨rfl, hk⟩ | ⟨rfl, hk⟩ | ⟨rfl, hk⟩
      · exact standard_keyMax.trans_le hk
      · exact standard_bufMax.trans_le hk
      · exact standard_bufMax.trans_le hk
    exact ⟨hostStep_byteRead_beyond s beyond, hostStep_byteWrite_beyond v s beyond⟩

/-! ### The step of an access -/

/-- An access by flat address at the head of the order is the next step, as the action it names (R48, R50). -/
theorem stepIn_bus {cfg : Config} {s : State} {x : BusAccess} {rest : List Event} (h : s.events = .bus x :: rest) :
    stepIn cfg s = .next (hostStep cfg x.toAction (s.setEvents rest)) := by
  unfold stepIn advanceMachine
  rw [h]
  rfl

theorem step_bus {s : State} {x : BusAccess} {rest : List Event} (h : s.events = .bus x :: rest) :
    step s = .next (hostStep Config.standard x.toAction (s.setEvents rest)) := by
  rw [step_eq_stepIn]
  exact stepIn_bus h

/-- Settles O33. -/
theorem hostEventsAreTheirActions : Obligations.HostEventsAreTheirActions :=
  fun _ _ => ⟨fun _ h => step_bus h, fun _ h => step_host h⟩

/-! ### A command in flight -/

/-- What is left of a state when FAULT, the reply and the count of draws are not looked at is the same in `s` and `t`: all that a
command in flight computes with, and all that it has computed. -/
def State.SameComputation (s t : State) : Prop :=
  t = { s with faultBits := t.faultBits, reply := t.reply, draws := t.draws }

/-- Of a host action's outcomes only a fault and a read are left while a command is in flight: the port stores a byte and accepts a
command only when the core is idle (R54, R133, R136). -/
theorem HostEffect.sameComputation {cfg : Config} {s t : State} {a : HostAction} (eff : HostEffect cfg s a t)
    (busy : s.busy = true) (ha : a ≠ .reset) : s.SameComputation t := by
  cases eff with
  | fault a b v => rfl
  | read a v k => rfl
  | store b k v idle => simp [busy] at idle
  | accepted w i word idle => simp [busy] at idle
  | reset => exact absurd rfl ha

/-- An event that is neither the core's turn nor a reset nor power applied is a host action that is not a reset, and the next step
(R9, R48). -/
theorem step_eq_hostStep {s : State} {e : Event} {rest : List Event} (next : s.events = e :: rest) (hcomplete : e ≠ .complete)
    (hreset : e ≠ .host .reset) (hpower : e ≠ .powerOn) :
    ∃ a : HostAction, a ≠ .reset ∧ step s = .next (hostStep Config.standard a (s.setEvents rest)) := by
  cases e with
  | host a => exact ⟨a, fun h => hreset (h ▸ rfl), step_host next⟩
  | bus x => exact ⟨x.toAction, toAction_ne_reset x, step_bus next⟩
  | complete => exact absurd rfl hcomplete
  | powerOn => exact absurd rfl hpower

/-- Settles O56. -/
theorem commandInFlightIsUndisturbed : Obligations.CommandInFlightIsUndisturbed := by
  unfold Obligations.CommandInFlightIsUndisturbed
  intro s e rest next busy hcomplete hreset hpower
  obtain ⟨a, ha, hstep⟩ := step_eq_hostStep next hcomplete hreset hpower
  exact ⟨_, hstep, (hostStep_effect Config.standard a (s.setEvents rest)).sameComputation busy ha⟩

end Sys2Proof.Machine

/-! ## Command words (spec/30_encoding.md)

`decode` undoes `encode` on every word that is the word of a command. A word matches a command's row exactly if it is the word of the
command of that row whose count is its field `N`; the pattern statements follow from the two. -/

namespace Sys2Proof

/-- Decoding the word of a command that a word can carry gives the command back: each field of the word is the one it was made from. -/
theorem decode_encode {i : Instr} (h : i.wellFormed = true) : decode (encode i) = .ok i := by
  cases i with
  | derive n => simpa [encode, decode, Instr.wellFormed] using h
  | encb => decide
  | decb => decide
  | ecbe n => simpa [encode, decode, Instr.wellFormed] using h
  | ecbd n => simpa [encode, decode, Instr.wellFormed] using h

/-- A word whose reserved field is 0 is the command word of what its other two fields hold. -/
theorem commandWord_eq {w : Word} {o : Byte} {n : Nat} (rsv : rsvField w = 0) (opc : opcField w = o) (count : (nField w).toNat = n) :
    commandWord o n = w := by
  rw [← opc, ← count, commandWord_fields rsv]

/-- No two words stand for one command (R61, R63): a decoded command has the word it was decoded from. -/
theorem encode_of_decode {w : Word} {i : Instr} (h : decode w = .ok i) : encode i = w := by
  unfold decode at h
  split_ifs at h with rsv derive encb count decb count ecbe ecbd <;> cases h -- the five rows of R63, in order, are left
  · exact commandWord_eq (not_not.1 rsv) derive rfl
  · exact commandWord_eq (not_not.1 rsv) encb (by rw [count]; rfl)
  · exact commandWord_eq (not_not.1 rsv) decb (by rw [count]; rfl)
  · exact commandWord_eq (not_not.1 rsv) ecbe rfl
  · exact commandWord_eq (not_not.1 rsv) ecbd rfl

/-! ### The rows of the opcode map -/

/-- The command of the same row whose count is `n`, where the row has a count (R63). -/
def Instr.withCount (n : Nat) : Instr → Instr
  | .derive _ => .derive n
  | .encb => .encb
  | .decb => .decb
  | .ecbe _ => .ecbe n
  | .ecbd _ => .ecbd n

theorem maskOf_withCount (n : Nat) (i : Instr) : maskOf (i.withCount n) = maskOf i := by
  cases i <;> rfl

theorem matchOf_withCount (n : Nat) (i : Instr) : matchOf (i.withCount n) = matchOf i := by
  cases i <;> rfl

theorem wellFormed_withCount (n : BitVec 16) (i : Instr) : (i.withCount n.toNat).wellFormed = true := by
  cases i with
  | derive _ => exact decide_eq_true n.isLt
  | encb => rfl
  | decb => rfl
  | ecbe _ => exact decide_eq_true n.isLt
  | ecbd _ => exact decide_eq_true n.isLt

theorem sameRow_withCount (n : Nat) (i : Instr) : Machine.Instr.SameRow i (i.withCount n) := by
  cases i <;> simp [Machine.Instr.SameRow, Instr.withCount]

theorem exists_withCount_of_sameRow {i j : Instr} (h : Machine.Instr.SameRow i j) : ∃ n, j = i.withCount n := by
  obtain ⟨-, m, rfl, rfl⟩ | ⟨rfl, rfl⟩ | ⟨rfl, rfl⟩ | ⟨-, m, rfl, rfl⟩ | ⟨-, m, rfl, rfl⟩ := h
  · exact ⟨m, rfl⟩
  · exact ⟨0, rfl⟩
  · exact ⟨0, rfl⟩
  · exact ⟨m, rfl⟩
  · exact ⟨m, rfl⟩

/-- Two commands that the same count makes equal are of one row. -/
theorem sameRow_of_withCount_eq {i j : Instr} {n : Nat} (h : i.withCount n = j.withCount n) : Machine.Instr.SameRow i j := by
  have hi : Machine.Instr.SameRow i (j.withCount n) := h ▸ sameRow_withCount n i
  cases j <;> simpa [Machine.Instr.SameRow, Instr.withCount] using hi

/-! ### The patterns of the opcode map -/

/-- The mask 0xFFFF0000 leaves a row's `match` value only of a word that carries that row's opcode, a reserved field of 0, and any
count. -/
theorem commandWord_of_high_mask {w : Word} {o : Byte} (h : w &&& 0xFFFF0000 = commandWord o 0) :
    commandWord o (nField w).toNat = w := by
  obtain ⟨opc, rsv, -⟩ := fields_high_mask w
  rw [h] at opc rsv
  exact commandWord_eq (rsv.symm.trans (rsvField_commandWord o 0)) (opc.symm.trans (opcField_commandWord o 0)) rfl

theorem and_full_mask (w : Word) : w &&& 0xFFFFFFFF = w :=
  BitVec.and_allOnes

/-- A word that matches a row is the word of the command of that row whose count is its field `N`. -/
theorem encode_of_match {w : Word} {i : Instr} (h : w &&& maskOf i = matchOf i) : encode (i.withCount (nField w).toNat) = w := by
  cases i with
  | derive _ => exact commandWord_of_high_mask (h.trans (show 0x01000000 = commandWord 0x01 0 by decide))
  | encb => exact (show encode .encb = 0x02000000 by decide).trans (h.symm.trans (and_full_mask w))
  | decb => exact (show encode .decb = 0x03000000 by decide).trans (h.symm.trans (and_full_mask w))
  | ecbe _ => exact commandWord_of_high_mask (h.trans (show 0x04000000 = commandWord 0x04 0 by decide))
  | ecbd _ => exact commandWord_of_high_mask (h.trans (show 0x05000000 = commandWord 0x05 0 by decide))

/-- So it decodes to that command. -/
theorem decode_of_match {w : Word} {i : Instr} (h : w &&& maskOf i = matchOf i) :
    decode w = .ok (i.withCount (nField w).toNat) := by
  conv_lhs => rw [← encode_of_match h]
  exact decode_encode (wellFormed_withCount (nField w) i)

/-- The word of a well-formed command matches its row. -/
theorem encode_match : ∀ i : Instr, i.wellFormed = true → encode i &&& maskOf i = matchOf i
  | .derive n => Laws.FieldPattern.derive n
  | .encb => Laws.FieldPattern.encb
  | .decb => Laws.FieldPattern.decb
  | .ecbe n => Laws.FieldPattern.ecbe n
  | .ecbd n => Laws.FieldPattern.ecbd n

/-- A word that decodes matches the row of the command it decodes to. -/
theorem match_of_decode {w : Word} {i : Instr} (h : decode w = .ok i) : w &&& maskOf i = matchOf i := by
  rw [← encode_of_decode h]
  exact encode_match i (decode_wellFormed h)

/-! ### The statements -/

/-- Settles O1. -/
theorem decodeOfEncode : Obligations.DecodeOfEncode :=
  fun _ h => decode_encode h

/-- Settles O2. -/
theorem decodedCommandReencodes : Obligations.DecodedCommandReencodes :=
  fun _ _ h => ⟨decode_wellFormed h, encode_of_decode h⟩

/-- Settles O3: a word that matches a row decodes by that row, and a word that decodes at all matches a row. -/
theorem decodeFollowsOpcodeMap : Obligations.DecodeFollowsOpcodeMap := by
  unfold Obligations.DecodeFollowsOpcodeMap
  intro w
  rw [toNat_low_mask]
  refine ⟨fun h => decode_of_match (i := .derive 0) h, fun h => decode_of_match (i := .encb) h,
    fun h => decode_of_match (i := .decb) h, fun h => decode_of_match (i := .ecbe 0) h,
    fun h => decode_of_match (i := .ecbd 0) h, fun derive encb decb ecbe ecbd => ?_⟩
  cases hd : decode w with
  | error e => exact ⟨e, rfl⟩
  | ok i =>
    have hm := match_of_decode hd
    cases i with
    | derive _ => exact absurd hm derive
    | encb => exact absurd hm encb
    | decb => exact absurd hm decb
    | ecbe _ => exact absurd hm ecbe
    | ecbd _ => exact absurd hm ecbd

/-- Settles O4: a word has one decoding, so two rows that it matches are one row. -/
theorem commandPatternsDisjoint : Obligations.CommandPatternsDisjoint := by
  unfold Obligations.CommandPatternsDisjoint
  refine ⟨fun w i j hi hj => ?_, fun w i => ⟨fun h => ?_, ?_⟩⟩
  · exact sameRow_of_withCount_eq (Except.ok.inj ((decode_of_match hi).symm.trans (decode_of_match hj)))
  · exact ⟨_, sameRow_withCount _ i, decode_of_match h⟩
  · rintro ⟨j, hrow, hd⟩
    obtain ⟨n, rfl⟩ := exists_withCount_of_sameRow hrow
    have hm := match_of_decode hd
    rwa [maskOf_withCount, matchOf_withCount] at hm

/-- Settles O5: each is one evaluation of the decoder on a word written out. -/
theorem sampleWordsDecode : Obligations.SampleWordsDecode := by
  unfold Obligations.SampleWordsDecode
  decide

end Sys2Proof

/-! ## Host scripts (spec/30_encoding.md, R66, R67)

What one host action returns or stores on an idle core, what the host's turns make of one task of a script, and how the turns of the
tasks add up to those of a pseudo-line. -/

namespace Sys2Proof.Machine

/-- The host performs the next line of its first task, and goes on with what that leaves it to do. -/
theorem run_host_cons {cfg : Config} {s t : State} {task : HostTask} (action : hostStep cfg task.next.action s = t) (turns : List Turn)
    (rest : List HostTask) (result : List Byte) :
    ScriptRun.run cfg (.host :: turns) ⟨s, task :: rest, result⟩ =
      ScriptRun.run cfg turns ⟨t, task.remaining t.reply ++ rest, result ++ task.collected t.reply⟩ := by
  subst action
  exact ScriptRun.run_cons (ScriptRun.hostTurn_cons cfg s task rest result)

/-! ### WAIT -/

/-- Bit 0 of STATUS is `BUSY` (R27). -/
theorem statusWord_bit0 (s : State) : s.statusWord.getLsbD 0 = s.busy := by
  unfold State.statusWord
  cases s.sv <;> cases s.busy <;> rfl

/-- One poll of a WAIT: STATUS is read, and the WAIT goes on if it showed `BUSY` = 1 (R67). -/
theorem run_poll (cfg : Config) (s : State) (rest : List HostTask) (result : List Byte) :
    ScriptRun.run cfg [.host] ⟨s, .poll :: rest, result⟩ =
      .next ⟨s.setReply (some (.word s.statusWord)), (if s.busy then [.poll] else []) ++ rest, result⟩ := by
  rw [run_host_cons (t := s.setReply (some (.word s.statusWord))) rfl, ScriptRun.run_nil]
  simp only [State.setReply_reply, HostTask.remaining, HostTask.collected, statusWord_bit0, List.append_nil]

/-- While a command is in flight, polls change nothing but what the last of them returned, and the WAIT is still to be done. -/
theorem run_polls_busy (cfg : Config) {s : State} (busy : s.busy = true) (polls : Nat) (rest : List HostTask) (result : List Byte) :
    ∃ v, ScriptRun.run cfg (List.replicate polls .host) ⟨s, .poll :: rest, result⟩ =
      .next ⟨s.setReply v, .poll :: rest, result⟩ := by
  induction polls with
  | zero => exact ⟨s.reply, rfl⟩
  | succ polls ih =>
    obtain ⟨v, hv⟩ := ih
    refine ⟨some (.word (s.setReply v).statusWord), ?_⟩
    rw [List.replicate_succ', ScriptRun.run_append _ _ hv, run_poll, State.setReply_busy, if_pos busy]
    rfl

/-- With the core idle one poll ends the WAIT. -/
theorem run_poll_idle (cfg : Config) {s : State} (idle : s.busy = false) (rest : List HostTask) (result : List Byte) :
    ∃ (t : ScriptRun) (w : Word), ScriptRun.run cfg [.host] ⟨s, .poll :: rest, result⟩ = .next t ∧
      t.todo = rest ∧ t.result = result ∧ t.machine.busy = false ∧ t.machine.reply = some (.word w) ∧ w.getLsbD 0 = false := by
  refine ⟨_, s.statusWord, run_poll cfg s rest result, ?_, rfl, idle, rfl, (statusWord_bit0 s).trans idle⟩
  simp [idle]

/-- Settles O46: polls leave the command in flight as it is, the core's turn completes it, and the next poll sees an idle core. -/
theorem waitEndsIdle : Obligations.WaitEndsIdle := by
  unfold Obligations.WaitEndsIdle
  intro cfg s rest result hinv
  refine ⟨fun busy polls => ?_, fun idle => run_poll_idle cfg idle rest result⟩
  obtain ⟨v, hv⟩ := run_polls_busy cfg busy polls rest result
  obtain ⟨u, hu, idle⟩ := complete_next (s := s.setReply v) hinv.inRange
  refine ⟨⟨_, hv, rfl, rfl, busy⟩, ?_⟩
  have core : ScriptRun.take cfg .core ⟨s.setReply v, .poll :: rest, result⟩ = .next ⟨u, .poll :: rest, result⟩ :=
    ScriptRun.coreTurn_next (.poll :: rest) result hu
  have run : ScriptRun.run cfg (List.replicate polls .host ++ [.core, .host]) ⟨s, .poll :: rest, result⟩ =
      ScriptRun.run cfg [.host] ⟨u, .poll :: rest, result⟩ := by
    rw [ScriptRun.run_append _ _ hv, ScriptRun.run_cons core]
  exact run ▸ run_poll_idle cfg idle rest result

/-! ### Byte accesses of an idle core -/

theorem hostStep_byteWrite_idle {cfg : Config} {s : State} {b : Buffer} {k : Nat} (v : Byte) (idle : s.busy = false)
    (writable : b ≠ .obuf) (inside : k < b.size cfg) :
    hostStep cfg (.byteWrite b k v) s = (s.setBuffer b (Memory.write (s.buffer b) k v)).setReply none := by
  show byteWrite cfg b k v s = _
  rw [byteWrite, if_neg (by simp [idle]), if_neg writable, if_neg (by omega)]

theorem hostStep_byteRead_idle {cfg : Config} {s : State} {b : Buffer} {k : Nat} {v : Byte} (idle : s.busy = false)
    (inside : k < b.size cfg) (written : Memory.lookup (s.buffer b) k = some v) :
    hostStep cfg (.byteRead b k) s = s.setReply (some (.byte v)) := by
  show byteRead cfg b k s = _
  rw [byteRead, if_neg (by omega), if_neg (by simp [idle]), written]

/-! ### The tasks that move a byte -/

/-- A line that writes a byte takes one turn. -/
theorem run_write {cfg : Config} {s : State} {x : ScriptLine} {b : Buffer} {k : Nat} {v : Byte} (action : x.action = .byteWrite b k v)
    (idle : s.busy = false) (writable : b ≠ .obuf) (inside : k < b.size cfg) (rest : List HostTask) (result : List Byte) :
    ScriptRun.run cfg [.host] ⟨s, .line x :: rest, result⟩ =
      .next ⟨(s.setBuffer b (Memory.write (s.buffer b) k v)).setReply none, rest, result⟩ := by
  rw [run_host_cons ((congrArg (hostStep cfg · s) action).trans (hostStep_byteWrite_idle v idle writable inside)), ScriptRun.run_nil]
  simp [HostTask.remaining, HostTask.collected]

/-- Collecting a byte of OBUF takes one turn. -/
theorem run_collect {cfg : Config} {s : State} {k : Nat} {v : Byte} (idle : s.busy = false) (inside : k < cfg.bufMax)
    (written : Memory.lookup s.obuf k = some v) (rest : List HostTask) (result : List Byte) :
    ScriptRun.run cfg [.host] ⟨s, .collect k :: rest, result⟩ =
      .next ⟨s.setReply (some (.byte v)), rest, result ++ [v]⟩ := by
  rw [run_host_cons (task := .collect k) (hostStep_byteRead_idle (b := .obuf) idle inside written), ScriptRun.run_nil]
  simp [HostTask.remaining, HostTask.collected]

/-- Copying a byte of OBUF takes two turns: the read, and the write of the byte read. -/
theorem run_copy {cfg : Config} {s : State} {k : Nat} {v : Byte} (idle : s.busy = false) (inside : k < cfg.bufMax)
    (written : Memory.lookup s.obuf k = some v) (rest : List HostTask) (result : List Byte) :
    ScriptRun.run cfg [.host, .host] ⟨s, .copy k :: rest, result⟩ =
      .next ⟨(s.setBuffer .ibuf (Memory.write s.ibuf k v)).setReply none, rest, result⟩ := by
  rw [run_host_cons (task := .copy k) (hostStep_byteRead_idle (b := .obuf) idle inside written)]
  simp only [State.setReply_reply, HostTask.remaining, HostTask.collected, List.append_nil, List.singleton_append]
  exact run_write (b := .ibuf) (s := s.setReply (some (.byte v))) rfl idle nofun inside rest result

/-! ### A list of tasks, one after another -/

/-- `P k` says what is so of the machine and the result when `k` tasks are done: if each task takes `P k` to `P (k + 1)` in `c` turns of
the host, then all the tasks together take `P 0` to `P` of their number. -/
theorem run_tasks {cfg : Config} {c : Nat} {tasks : List HostTask} {P : Nat → State → List Byte → Prop}
    (task : ∀ k x, tasks[k]? = some x → ∀ (s : State) (result : List Byte) (rest : List HostTask), P k s result →
      ∃ s' result', ScriptRun.run cfg (List.replicate c .host) ⟨s, x :: rest, result⟩ = .next ⟨s', rest, result'⟩ ∧
        P (k + 1) s' result') {s : State} {result : List Byte} (start : P 0 s result) :
    ∃ s' result', ScriptRun.run cfg (List.replicate (c * tasks.length) .host) ⟨s, tasks, result⟩ = .next ⟨s', [], result'⟩ ∧
      P tasks.length s' result' := by
  induction tasks generalizing P s result with
  | nil => exact ⟨s, result, rfl, start⟩
  | cons x tasks ih =>
    obtain ⟨s₁, result₁, first, h₁⟩ := task 0 x rfl s result tasks start
    obtain ⟨s', result', others, h'⟩ := ih (P := fun k => P (k + 1)) (fun k y hy => task (k + 1) y hy) h₁
    refine ⟨s', result', ?_, h'⟩
    rw [List.length_cons, Nat.mul_succ, Nat.add_comm, ← List.replicate_append_replicate, ScriptRun.run_append _ _ first, others]

/-- A script of one item begins with the expansion of that item (R67). -/
theorem start_single (x : ScriptItem) (s : State) : ScriptRun.start [x] s = ⟨s, x.expand, []⟩ := by
  simp [ScriptRun.start]

/-! ### Filling a buffer from index 0 on -/

/-- The first `k` bytes of `src` stand in the buffer `b` of `t`, and but for them and the reply `t` is `s`. -/
structure State.Filled (s : State) (b : Buffer) (src : Nat → Option Byte) (k : Nat) (t : State) : Prop where
  bytes : ∀ a, Memory.lookup (t.buffer b) a = if a < k then src a else Memory.lookup (s.buffer b) a
  frame : t = (s.setBuffer b (t.buffer b)).setReply t.reply

/-- The buffer just replaced holds what it was replaced by. -/
theorem State.buffer_setBuffer_setReply (s : State) (b : Buffer) (m : Memory) (v : Option Reply) :
    ((s.setBuffer b m).setReply v).buffer b = m := by
  cases b <;> rfl

theorem State.setBuffer_busy (s : State) (b : Buffer) (m : Memory) : (s.setBuffer b m).busy = s.busy := by
  cases b <;> rfl

section
variable {s t : State} {b : Buffer} {src : Nat → Option Byte} {k : Nat}

theorem State.Filled.zero (s : State) (b : Buffer) (src : Nat → Option Byte) : s.Filled b src 0 s where
  bytes a := by simp
  frame := by cases b <;> rfl

theorem State.Filled.busy (h : s.Filled b src k t) : t.busy = s.busy := by
  rw [h.frame, State.setReply_busy, State.setBuffer_busy]

/-- Filling IBUF leaves OBUF alone. -/
theorem State.Filled.obuf (h : s.Filled .ibuf src k t) : t.obuf = s.obuf := by
  rw [h.frame]
  rfl

/-- One byte more. -/
theorem State.Filled.write (h : s.Filled b src k t) {v : Byte} (hv : src k = some v) :
    s.Filled b src (k + 1) ((t.setBuffer b (Memory.write (t.buffer b) k v)).setReply none) where
  bytes a := by
    rw [State.buffer_setBuffer_setReply, Memory.lookup_write, h.bytes]
    by_cases hak : a = k
    · rw [if_pos hak, if_pos (by omega), hak, hv]
    · simp only [if_neg hak, show a < k + 1 ↔ a < k by omega]
  frame := by
    rw [h.frame]
    cases b <;> rfl

end

/-- The tasks of a run of byte writes (R67). -/
theorem writesFromZero_getElem? {line : Nat → Byte → ScriptLine} {bytes : List Byte} {k : Nat} {x : HostTask}
    (h : (writesFromZero line bytes)[k]? = some x) : ∃ v, bytes[k]? = some v ∧ x = .line (line k v) := by
  simp only [writesFromZero, List.getElem?_map, List.getElem?_zipIdx, Option.map_map, Option.map_eq_some_iff] at h
  obtain ⟨v, hv, rfl⟩ := h
  exact ⟨v, hv, by simp⟩

/-- The tasks of `OUT m` and of `COPYBACK m` (R67). -/
theorem range_map_getElem? {f : Nat → HostTask} {m k : Nat} {x : HostTask} (h : ((List.range m).map f)[k]? = some x) :
    k < m ∧ x = f k := by
  obtain ⟨hk, hx⟩ := List.getElem?_eq_some_iff.1 h
  exact ⟨by simpa using hk, by simpa using hx.symm⟩

/-- `KEY` and `IN`: a run of byte writes fills its buffer, one turn a byte. -/
theorem run_writesFromZero {cfg : Config} {s : State} {line : Nat → Byte → ScriptLine} {b : Buffer}
    (action : ∀ k v, (line k v).action = .byteWrite b k v) (writable : b ≠ .obuf) (idle : s.busy = false) {bytes : List Byte}
    (inside : bytes.length ≤ b.size cfg) :
    ∃ t result, ScriptRun.run cfg (List.replicate bytes.length .host) ⟨s, writesFromZero line bytes, []⟩ = .next ⟨t, [], result⟩ ∧
      s.Filled b (fun a => bytes[a]?) bytes.length t := by
  have run := run_tasks (cfg := cfg) (c := 1) (tasks := writesFromZero line bytes) (result := [])
    (P := fun k t _ => s.Filled b (fun a => bytes[a]?) k t) ?task (State.Filled.zero s b _)
  case task =>
    intro k x hx t result rest filled
    obtain ⟨v, hv, rfl⟩ := writesFromZero_getElem? hx
    have hk : k < bytes.length := (List.getElem?_eq_some_iff.1 hv).1
    exact ⟨_, _, run_write (action k v) (filled.busy.trans idle) writable (by omega) rest result, filled.write hv⟩
  simpa [writesFromZero] using run

/-- `COPYBACK m` fills IBUF from OBUF, two turns a byte. -/
theorem run_copyback {cfg : Config} {s : State} (idle : s.busy = false) {m : Nat} (inside : m ≤ cfg.bufMax)
    (written : ∀ k < m, (Memory.lookup s.obuf k).isSome = true) :
    ∃ t result, ScriptRun.run cfg (List.replicate (2 * m) .host) ⟨s, (ScriptItem.copyback m).expand, []⟩ = .next ⟨t, [], result⟩ ∧
      s.Filled .ibuf (Memory.lookup s.obuf) m t := by
  have run := run_tasks (cfg := cfg) (c := 2) (tasks := (ScriptItem.copyback m).expand) (result := [])
    (P := fun k t _ => s.Filled .ibuf (Memory.lookup s.obuf) k t) ?task (State.Filled.zero s .ibuf _)
  case task =>
    intro k x hx t result rest filled
    obtain ⟨hk, rfl⟩ := range_map_getElem? hx
    obtain ⟨v, hv⟩ := Option.isSome_iff_exists.1 (written k hk)
    exact ⟨_, _, run_copy (filled.busy.trans idle) (by omega) (filled.obuf ▸ hv) rest result, filled.write hv⟩
  simpa [ScriptItem.expand] using run

/-! ### Collecting bytes -/

/-- The result is the first `k` bytes of OBUF, in order, and but for the reply `t` is `s`. -/
structure State.Collected (s : State) (k : Nat) (t : State) (result : List Byte) : Prop where
  bytes : result.map some = (List.range k).map (Memory.lookup s.obuf)
  frame : t = s.setReply t.reply

section
variable {s t : State} {k : Nat} {result : List Byte}

theorem State.Collected.zero (s : State) : s.Collected 0 s [] := ⟨rfl, rfl⟩

theorem State.Collected.busy (h : s.Collected k t result) : t.busy = s.busy := by
  rw [h.frame]
  rfl

theorem State.Collected.obuf (h : s.Collected k t result) : t.obuf = s.obuf := by
  rw [h.frame]
  rfl

/-- One byte more. -/
theorem State.Collected.read (h : s.Collected k t result) {v : Byte} (hv : Memory.lookup s.obuf k = some v) :
    s.Collected (k + 1) (t.setReply (some (.byte v))) (result ++ [v]) where
  bytes := by rw [List.range_succ, List.map_append, List.map_append, h.bytes, List.map_singleton, List.map_singleton, hv]
  frame := by
    rw [h.frame]
    rfl

theorem State.Collected.length (h : s.Collected k t result) : result.length = k := by
  simpa using congrArg List.length h.bytes

theorem State.Collected.getElem? (h : s.Collected k t result) {a : Nat} (ha : a < k) : result[a]? = Memory.lookup s.obuf a := by
  have hat : (result.map some)[a]? = some (Memory.lookup s.obuf a) := by simp [h.bytes, ha]
  rw [List.getElem?_map, Option.map_eq_some_iff] at hat
  obtain ⟨v, hv, hlookup⟩ := hat
  exact hv.trans hlookup

end

/-- `OUT m` collects the first `m` bytes of OBUF, one turn a byte. -/
theorem run_out {cfg : Config} {s : State} (idle : s.busy = false) {m : Nat} (inside : m ≤ cfg.bufMax)
    (written : ∀ k < m, (Memory.lookup s.obuf k).isSome = true) :
    ∃ t result, ScriptRun.run cfg (List.replicate m .host) ⟨s, (ScriptItem.out m).expand, []⟩ = .next ⟨t, [], result⟩ ∧
      s.Collected m t result := by
  have run := run_tasks (cfg := cfg) (c := 1) (tasks := (ScriptItem.out m).expand) (P := s.Collected) ?task
    (State.Collected.zero s)
  case task =>
    intro k x hx t result rest collected
    obtain ⟨hk, rfl⟩ := range_map_getElem? hx
    obtain ⟨v, hv⟩ := Option.isSome_iff_exists.1 (written k hk)
    exact ⟨_, _, run_collect (collected.busy.trans idle) (by omega) (collected.obuf ▸ hv) rest result, collected.read hv⟩
  simpa [ScriptItem.expand] using run

/-- Settles O47. -/
theorem scriptsMoveBytes : Obligations.ScriptsMoveBytes := by
  unfold Obligations.ScriptsMoveBytes
  intro cfg s idle
  simp only [start_single]
  refine ⟨fun bytes hlen => ?_, fun bytes hlen => ?_, fun m hm written => ⟨?_, ?_⟩⟩
  · obtain ⟨t, result, run, filled⟩ := run_writesFromZero (line := .wkey) (b := .keybuf) (fun _ _ => rfl) nofun idle hlen
    exact ⟨_, run, rfl, filled.bytes, filled.frame⟩
  · obtain ⟨t, result, run, filled⟩ := run_writesFromZero (line := .win) (b := .ibuf) (fun _ _ => rfl) nofun idle hlen
    exact ⟨_, run, rfl, filled.bytes, filled.frame⟩
  · obtain ⟨t, result, run, collected⟩ := run_out idle hm written
    exact ⟨_, run, rfl, collected.length, fun _ hk => collected.getElem? hk, collected.frame⟩
  · obtain ⟨t, result, run, filled⟩ := run_copyback idle hm written
    exact ⟨_, run, rfl, filled.bytes, filled.frame⟩

end Sys2Proof.Machine

/-! ## The key schedule (spec/40_key_schedule.md)

The stream of the secret and its chunks, the XOR pass, the two chains of encryptions cut off after their first `k`, and what DERIVE
makes of two streams that agree. -/

namespace Sys2Proof.Machine

/-! ### The stream and its chunks -/

@[simp] theorem keyStream_empty (s : State) (m : Nat) : keyStream s 0 m = 0 := rfl

/-- Two secrets that read alike at every position of their streams, the first of them written, have one stream (R82). -/
theorem keyStream_congr {s u : State} {n n' : Nat} (empty : n' = 0 ↔ n = 0) (written : State.SecretWritten s n)
    (h : 0 < n → ∀ m, Memory.lookup u.keybuf (m % n') = Memory.lookup s.keybuf (m % n)) (m : Nat) :
    keyStream u n' m = keyStream s n m := by
  rcases Nat.eq_zero_or_pos n with hn | hn
  · rw [hn, empty.2 hn, keyStream_empty, keyStream_empty]
  · obtain ⟨v, hv⟩ := Option.isSome_iff_exists.1 (written (m % n) (Nat.mod_lt m hn))
    rw [keyStream_of_lookup hn hv, keyStream_of_lookup (by omega) ((h hn m).trans hv)]

/-- Byte `j` of chunk `i` is stream byte `4i + j` (R82). -/
theorem chunk_byte (key : Nat → Byte) (i : Nat) (j : Fin 4) :
    (chunk key i).extractLsb' (24 - 8 * j.val) 8 = key (4 * i + j.val) :=
  match j with
  | 0 => be32_slice0 _ _ _ _
  | 1 => be32_slice1 _ _ _ _
  | 2 => be32_slice2 _ _ _ _
  | 3 => be32_slice3 _ _ _ _

/-- Settles O11. -/
theorem chunksCycleTheSecret : Obligations.ChunksCycleTheSecret := by
  unfold Obligations.ChunksCycleTheSecret
  refine ⟨fun s n i j hn written => ?_, fun s i => ?_⟩
  · obtain ⟨v, hv⟩ := Option.isSome_iff_exists.1 (written _ (Nat.mod_lt (4 * i + j.val) hn))
    rw [chunk_byte, keyStream_of_lookup hn hv, hv]
  · simp only [chunk, keyStream_empty]
    decide

/-! ### The XOR pass -/

/-- One word of step 2 (R83). -/
def xorWord (key : Nat → Byte) (p : Vector Word 18) (i : Fin 18) : Vector Word 18 := p.set i (p[i] ^^^ chunk key i)

theorem xorPass_eq (key : Nat → Byte) (p : Vector Word 18) : xorPass key p = (List.finRange 18).foldl (xorWord key) p := rfl

theorem xorWord_get (key : Nat → Byte) (p : Vector Word 18) (i k : Fin 18) :
    (xorWord key p k)[i] = if k = i then p[i] ^^^ chunk key i.val else p[i] := by
  unfold xorWord
  by_cases h : k = i
  · subst h; simp
  · have : k.val ≠ i.val := fun e => h (Fin.ext e)
    simp [h, this]

/-- Words of step 2 taken once each: those taken are mixed with their chunks, the others are as they were. -/
theorem foldl_xorWord_get (key : Nat → Byte) {l : List (Fin 18)} (once : l.Nodup) (p : Vector Word 18) (i : Fin 18) :
    (l.foldl (xorWord key) p)[i] = if i ∈ l then p[i] ^^^ chunk key i.val else p[i] := by
  induction l generalizing p with
  | nil => simp
  | cons k l ih =>
    obtain ⟨hk, hl⟩ := List.nodup_cons.1 once
    rw [List.foldl_cons, ih hl, xorWord_get]
    by_cases h : k = i
    · subst h; simp [hk]
    · simp [h, Ne.symm h]

theorem startWorking_p (init : KeySchedule) (key : Nat → Byte) (i : Fin 18) :
    (startWorking init key).sched.p[i] = init.p[i] ^^^ chunk key i.val := by
  show (xorPass key init.p)[i] = _
  rw [xorPass_eq, foldl_xorWord_get key (List.nodup_finRange 18), if_pos (List.mem_finRange i)]

@[simp] theorem startWorking_s (init : KeySchedule) (key : Nat → Byte) : (startWorking init key).sched.s = init.s := by
  simp only [startWorking]

@[simp] theorem startWorking_run (init : KeySchedule) (key : Nat → Byte) : (startWorking init key).run = ⟨0, 0⟩ := by
  simp only [startWorking]

/-- Settles O12. -/
theorem xorPassMixesSecret : Obligations.XorPassMixesSecret :=
  fun init key => ⟨startWorking_p init key, startWorking_s init key⟩

/-! ### Step 3 cut off after its first encryptions -/

/-- The first `k` encryptions of step 3 (R85). -/
def roundKeysAfter (w : Working) (k : Nat) : Working := ((List.finRange 9).take k).foldl replaceRoundKeys w

section
variable (w : Working)

theorem roundKeyPass_split (k : Nat) :
    roundKeyPass w = ((List.finRange 9).drop k).foldl replaceRoundKeys (roundKeysAfter w k) := by
  rw [roundKeysAfter, ← List.foldl_append, List.take_append_drop, roundKeyPass]

theorem roundKeysAfter_succ (m : Fin 9) : roundKeysAfter w (m.val + 1) = replaceRoundKeys (roundKeysAfter w m.val) m := by
  simp [roundKeysAfter, List.take_add_one]

/-- The next encryption takes the running block, and its output is the running block after it (R84). -/
theorem roundKeysAfter_run_succ (m : Fin 9) :
    (roundKeysAfter w (m.val + 1)).run = enc (roundKeysAfter w m.val).sched (roundKeysAfter w m.val).run := by
  rw [roundKeysAfter_succ]; rfl

theorem roundKeysAfter_s (k : Nat) : (roundKeysAfter w k).sched.s = w.sched.s := foldl_replaceRoundKeys_s _ w

/-- The round keys not yet reached are those of step 2. -/
theorem roundKeysAfter_p_of_le {k : Nat} {i : Fin 18} (h : 2 * k ≤ i.val) :
    (roundKeysAfter w k).sched.p[i] = w.sched.p[i] := by
  refine foldl_replaceRoundKeys_p_other _ w i fun m hm => ?_
  obtain ⟨a, ha, rfl⟩ := List.mem_take_iff_getElem.1 hm
  simp only [List.length_finRange, List.getElem_finRange, Fin.val_cast] at ha ⊢; omega

/-- The round keys already replaced are the finished ones. -/
theorem roundKeyPass_p_of_lt {k : Nat} {i : Fin 18} (h : i.val < 2 * k) :
    (roundKeyPass w).sched.p[i] = (roundKeysAfter w k).sched.p[i] := by
  rw [roundKeyPass_split w k]
  refine foldl_replaceRoundKeys_p_other _ _ i fun m hm => ?_
  obtain ⟨a, ha, rfl⟩ := List.mem_drop_iff_getElem.1 hm
  simp only [List.length_finRange, List.getElem_finRange, Fin.val_cast] at ha ⊢; omega

/-- The running block after an encryption of step 3 is the finished pair at its place. -/
theorem roundKeysAfter_run (m : Fin 9) :
    (roundKeysAfter w (m.val + 1)).run = ⟨(roundKeyPass w).sched.p[2 * m.val], (roundKeyPass w).sched.p[2 * m.val + 1]⟩ := by
  have hl := roundKeyPass_p_of_lt w (k := m.val + 1) (i := ⟨2 * m.val, by omega⟩) (by simp)
  have hr := roundKeyPass_p_of_lt w (k := m.val + 1) (i := ⟨2 * m.val + 1, by omega⟩) (by simp only; omega)
  simp only [Fin.getElem_fin] at hl hr
  rw [hl, hr, roundKeysAfter_succ, replaceRoundKeys_run]

/-- An encryption under the schedule as it stands after `m` encryptions of step 3, of the block written last, gives the finished pair
at place `m` (R84, R85). -/
theorem enc_eq_roundKeyPass_pair {m : Fin 9} {q : KeySchedule} {prev : Block}
    (hp : ∀ i : Fin 18, q.p[i] = if i.val < 2 * m.val then (roundKeyPass w).sched.p[i] else w.sched.p[i]) (hs : q.s = w.sched.s)
    (start : m.val = 0 → prev = w.run)
    (later : ∀ _ : 0 < m.val, prev = ⟨(roundKeyPass w).sched.p[2 * m.val - 2], (roundKeyPass w).sched.p[2 * m.val - 1]⟩) :
    enc q prev = ⟨(roundKeyPass w).sched.p[2 * m.val], (roundKeyPass w).sched.p[2 * m.val + 1]⟩ := by
  have hq : q = (roundKeysAfter w m.val).sched := by
    refine KeySchedule.eq_of_tables (Vector.ext fun i hi => (hp ⟨i, hi⟩).trans ?_) (hs.trans (roundKeysAfter_s w _).symm)
    split
    · next h => exact roundKeyPass_p_of_lt w h
    · next h => exact (roundKeysAfter_p_of_le w (Nat.le_of_not_lt h)).symm
  have hprev : prev = (roundKeysAfter w m.val).run := by
    obtain ⟨_ | k, hk⟩ := m
    · exact start rfl
    · exact (later k.succ_pos).trans (roundKeysAfter_run w ⟨k, by omega⟩).symm
  rw [hq, hprev, ← roundKeysAfter_run_succ, roundKeysAfter_run]

end

/-- Step 4 leaves the Round-Key Table as step 3 finished it. -/
theorem buildSchedule_p (init : KeySchedule) (key : Nat → Byte) :
    (buildSchedule init key).sched.p = (roundKeyPass (startWorking init key)).sched.p := by
  rw [buildSchedule_eq, foldl_tableStep_p]

/-- Settles O13: step 3 begins with the round keys of step 2, the tables of `INIT` and a running block of zero. -/
theorem roundKeysFromChainedEncryptions : Obligations.RoundKeysFromChainedEncryptions := by
  unfold Obligations.RoundKeysFromChainedEncryptions
  intro init key m q prev hp hs start later
  simp only [buildSchedule_p, ← startWorking_p] at hp later ⊢
  exact enc_eq_roundKeyPass_pair _ hp (hs.trans (startWorking_s init key).symm)
    (fun h => (start h).trans (startWorking_run init key).symm) later

/-! ### Step 4 cut off after its first encryptions -/

/-- The first `k` encryptions of step 4 (R86). -/
def tableWordsAfter (w : Working) (k : Nat) : Working := (tablePlaces.take k).foldl tableStep w

/-- The place of the encryption that gives `S[t][2m]` and `S[t][2m+1]`. -/
theorem tablePlace_eq (t : Fin 4) (m : Fin 128) : tablePlace ⟨128 * t.val + m.val, by omega⟩ = (t, m) := by
  simp only [tablePlace, Prod.mk.injEq, Fin.ext_iff]
  omega

section
variable (w : Working)

theorem tableWordsAfter_succ (t : Fin 4) (m : Fin 128) :
    tableWordsAfter w (128 * t.val + m.val + 1) = tableStep (tableWordsAfter w (128 * t.val + m.val)) (t, m) := by
  rw [← tablePlace_eq t m]
  exact foldl_take_tablePlaces_succ w ⟨128 * t.val + m.val, by omega⟩

/-- The next encryption takes the running block, and its output is the running block after it (R84). -/
theorem tableWordsAfter_run_succ (t : Fin 4) (m : Fin 128) :
    (tableWordsAfter w (128 * t.val + m.val + 1)).run =
      enc (tableWordsAfter w (128 * t.val + m.val)).sched (tableWordsAfter w (128 * t.val + m.val)).run := by
  rw [tableWordsAfter_succ]; rfl

theorem tableWordsAfter_p (k : Nat) : (tableWordsAfter w k).sched.p = w.sched.p := foldl_tableStep_p _ w

/-- The entries not yet reached are those of the start. -/
theorem tableWordsAfter_s_of_le {k : Nat} {u : Fin 4} {j : Fin 256} (h : 2 * k ≤ 256 * u.val + j.val) :
    (tableWordsAfter w k).sched.s[u][j] = w.sched.s[u][j] := by
  refine foldl_tableStep_s_other _ w u j fun x hx => ?_
  have := lt_of_mem_take_tablePlaces hx
  rintro ⟨rfl, hj⟩; omega

/-- The entries already replaced are the finished ones. -/
theorem foldl_tablePlaces_s_of_lt {k : Nat} {u : Fin 4} {j : Fin 256} (h : 256 * u.val + j.val < 2 * k) :
    (tablePlaces.foldl tableStep w).sched.s[u][j] = (tableWordsAfter w k).sched.s[u][j] := by
  rw [tableWordsAfter, ← List.take_append_drop k tablePlaces, List.foldl_append, List.take_append_drop]
  refine foldl_tableStep_s_other _ _ u j fun x hx => ?_
  have := le_of_mem_drop_tablePlaces hx
  rintro ⟨rfl, hj⟩; omega

/-- The running block after an encryption of step 4 is the finished pair at its place. -/
theorem tableWordsAfter_run (t : Fin 4) (m : Fin 128) :
    (tableWordsAfter w (128 * t.val + m.val + 1)).run =
      ⟨(tablePlaces.foldl tableStep w).sched.s[t][2 * m.val], (tablePlaces.foldl tableStep w).sched.s[t][2 * m.val + 1]⟩ := by
  have hl := foldl_tablePlaces_s_of_lt w (k := 128 * t.val + m.val + 1) (u := t) (j := ⟨2 * m.val, by omega⟩) (by simp only; omega)
  have hr := foldl_tablePlaces_s_of_lt w (k := 128 * t.val + m.val + 1) (u := t) (j := ⟨2 * m.val + 1, by omega⟩) (by simp only; omega)
  simp only [Fin.getElem_fin] at hl hr ⊢
  rw [hl, hr, tableWordsAfter_succ, tableStep_run]
  rfl

/-- An encryption under the schedule as it stands after the encryptions of step 4 before place `(t, m)`, of the block written last,
gives the finished pair at that place (R84, R86). -/
theorem enc_eq_step4_pair {t : Fin 4} {m : Fin 128} {q : KeySchedule} {prev : Block} (hp : q.p = w.sched.p)
    (hs : ∀ (u : Fin 4) (j : Fin 256), q.s[u][j] =
      if 256 * u.val + j.val < 256 * t.val + 2 * m.val then (tablePlaces.foldl tableStep w).sched.s[u][j] else w.sched.s[u][j])
    (start : t.val = 0 → m.val = 0 → prev = w.run)
    (nextTable : ∀ _ : 0 < t.val, m.val = 0 → prev =
      ⟨(tablePlaces.foldl tableStep w).sched.s[t.val - 1][254], (tablePlaces.foldl tableStep w).sched.s[t.val - 1][255]⟩)
    (sameTable : ∀ _ : 0 < m.val, prev =
      ⟨(tablePlaces.foldl tableStep w).sched.s[t][2 * m.val - 2], (tablePlaces.foldl tableStep w).sched.s[t][2 * m.val - 1]⟩) :
    enc q prev = ⟨(tablePlaces.foldl tableStep w).sched.s[t][2 * m.val], (tablePlaces.foldl tableStep w).sched.s[t][2 * m.val + 1]⟩ := by
  have hq : q = (tableWordsAfter w (128 * t.val + m.val)).sched := by
    refine KeySchedule.eq_of_tables (hp.trans (tableWordsAfter_p w _).symm) (tables_ext fun u j => (hs u j).trans ?_)
    split
    · next h => exact foldl_tablePlaces_s_of_lt w (by omega)
    · next h => exact (tableWordsAfter_s_of_le w (by omega)).symm
  have hprev : prev = (tableWordsAfter w (128 * t.val + m.val)).run := by
    obtain ⟨_ | k, hk⟩ := m
    · obtain ⟨_ | v, hv⟩ := t
      · exact start rfl rfl
      · exact (nextTable v.succ_pos rfl).trans (tableWordsAfter_run w ⟨v, by omega⟩ 127).symm
    · exact (sameTable k.succ_pos).trans (tableWordsAfter_run w t ⟨k, by omega⟩).symm
  rw [hq, hprev, ← tableWordsAfter_run_succ, tableWordsAfter_run]

end

/-- Settles O14: step 4 begins with the finished round keys, the tables of `INIT` and the last two round keys as running block. -/
theorem tableWordsFromChainedEncryptions : Obligations.TableWordsFromChainedEncryptions := by
  unfold Obligations.TableWordsFromChainedEncryptions
  intro init key t m q prev hp hs start nextTable sameTable
  have hinit : init.s = (roundKeyPass (startWorking init key)).sched.s := by rw [roundKeyPass_s, startWorking_s]
  simp only [buildSchedule_p, ← roundKeyPass_run] at hp start
  simp only [buildSchedule_eq, hinit] at hs nextTable sameTable ⊢
  exact enc_eq_step4_pair _ hp hs start nextTable sameTable

/-! ### DERIVE -/

theorem exec_derive (n : Nat) (s : State) : exec (.derive n) s = deriveIn Config.standard n s := rfl

theorem deriveIn_next {cfg : Config} {n : Nat} (s : State) (h : min n 72 ≤ cfg.keyMax) :
    deriveIn cfg n s = .next (deriveEffect cfg n s) := if_pos h

theorem min_le_standard_keyMax (n : Nat) : min n 72 ≤ Config.standard.keyMax :=
  standard_keyMax ▸ Nat.min_le_right n 72

/-- Settles O15. -/
theorem deriveCompletes : Obligations.DeriveCompletes := by
  unfold Obligations.DeriveCompletes
  intro n s _
  have completes := deriveIn_next s (min_le_standard_keyMax n)
  have last := buildSchedule_run Config.standard.init (keyStream s n)
  refine ⟨_, completes, deriveEffect_sched _ n s, ?_, ?_, deriveEffect_sv _ n s, deriveEffect_result _ n s, deriveEffect_busy _ n s,
    deriveEffect_obuf _ n s, (deriveEffect_completed _ n s).frame⟩
  · rw [deriveEffect_l, deriveEffect_sched, last]
  · rw [deriveEffect_r, deriveEffect_sched, last]

/-- Two DERIVE whose streams agree on the 72 bytes that the chunks take make the same schedule and the same last block (R89). -/
theorem deriveIn_agree {cfg : Config} {n n' : Nat} {s u : State} (hn : min n 72 ≤ cfg.keyMax) (hn' : min n' 72 ≤ cfg.keyMax)
    (stream : ∀ m < 72, keyStream u n' m = keyStream s n m) :
    ∃ t v : State, deriveIn cfg n s = .next t ∧ deriveIn cfg n' u = .next v ∧ v.sched = t.sched ∧ v.l = t.l ∧ v.r = t.r := by
  have build := buildSchedule_congr cfg.init stream
  refine ⟨_, _, deriveIn_next s hn, deriveIn_next u hn', ?_, ?_, ?_⟩
  · rw [deriveEffect_sched, deriveEffect_sched, build]
  · rw [deriveEffect_l, deriveEffect_l, build]
  · rw [deriveEffect_r, deriveEffect_r, build]

/-- The same for DERIVE with the default parameters. -/
theorem exec_derive_agree {n n' : Nat} {s u : State} (stream : ∀ m < 72, keyStream u n' m = keyStream s n m) :
    ∃ t v : State, exec (.derive n) s = .next t ∧ exec (.derive n') u = .next v ∧ v.sched = t.sched ∧ v.l = t.l ∧ v.r = t.r :=
  deriveIn_agree (min_le_standard_keyMax n) (min_le_standard_keyMax n') stream

/-- Settles O16. -/
theorem deriveIgnoresEarlierState : Obligations.DeriveIgnoresEarlierState := by
  unfold Obligations.DeriveIgnoresEarlierState
  intro n s u _ written same
  exact exec_derive_agree fun m _ => keyStream_congr Iff.rfl written (fun hn m => same _ (Nat.mod_lt m hn)) m

/-- Settles O17: of the first 72 stream bytes each is the byte of KEYBUF at its own position, under either count. -/
theorem onlyFirst72BytesMatter : Obligations.OnlyFirst72BytesMatter := by
  unfold Obligations.OnlyFirst72BytesMatter
  intro cfg n s hn hmax _
  refine deriveIn_agree (by omega) (by omega) fun m hm => ?_
  have hmod : m % 72 = m % n := by rw [Nat.mod_eq_of_lt hm, Nat.mod_eq_of_lt (by omega)]
  simp only [keyStream, hmod, show n ≠ 0 by omega, if_false, OfNat.ofNat_ne_zero]

/-- Settles O18: the position in `c` copies of the secret, modulo one copy, is the position in the secret. -/
theorem repeatedSecretSameSchedule : Obligations.RepeatedSecretSameSchedule := by
  unfold Obligations.RepeatedSecretSameSchedule
  intro n c s u hc _ written copies
  refine exec_derive_agree fun m _ => keyStream_congr (by simp [hc.ne']) written (fun hn m => ?_) m
  rw [copies _ (Nat.mod_lt m (Nat.mul_pos hc hn)), Nat.mod_mul_left_mod]

/-- Settles O19: both streams are zero throughout. -/
theorem emptySecretIsAllZeroSecret : Obligations.EmptySecretIsAllZeroSecret := by
  unfold Obligations.EmptySecretIsAllZeroSecret
  intro n s u _ zeros
  refine exec_derive_agree fun m _ => ?_
  rcases Nat.eq_zero_or_pos n with rfl | hn
  · rfl
  · exact keyStream_of_lookup hn (zeros _ (Nat.mod_lt m hn))

end Sys2Proof.Machine

/-! ## The block transform (spec/41_block_transform.md)

Decryption peels the rounds of an encryption off one by one, and is itself an encryption, under the Round-Key Table in reverse order. -/

namespace Sys2Proof.Machine

/-- The F-function on unsigned numbers (R90). -/
theorem feistelF_toNat (t : Vector (Vector Word 256) 4) (x : Word) :
    (feistelF t x).toNat =
      ((((t[0][(x.extractLsb' 24 8).toFin]).toNat + (t[1][(x.extractLsb' 16 8).toFin]).toNat) % 2 ^ 32 ^^^
        (t[2][(x.extractLsb' 8 8).toFin]).toNat) + (t[3][(x.extractLsb' 0 8).toFin]).toNat) % 2 ^ 32 := by
  simp only [feistelF, BitVec.toNat_add, BitVec.toNat_xor]

/-- The worked example of R90, evaluated. -/
theorem feistelF_standard_zero : feistelF Config.standard.init.s 0x00000000 = 0x2fcff51e := by decide +kernel

/-- Settles O6: the two additions and the XOR of R90 are those of words, and the example is one evaluation. -/
theorem roundFunctionArithmetic : Obligations.RoundFunctionArithmetic :=
  ⟨feistelF_toNat, feistelF_standard_zero⟩

/-! ### The rounds of an encryption -/

/-- The pair `(L, R)` after the first `m` rounds of an encryption (R93). -/
def roundsAfter (k : KeySchedule) (m : Nat) (b : Block) : Block := (k.p.toList.take m).foldl (feistelRound k.s) b

theorem roundsAfter_zero (k : KeySchedule) (b : Block) : roundsAfter k 0 b = b := rfl

theorem roundsAfter_succ (k : KeySchedule) {m : Nat} (hm : m < 18) (b : Block) :
    roundsAfter k (m + 1) b = feistelRound k.s (roundsAfter k m b) k.p[m] := by
  have key : k.p.toList[m]? = some k.p[m] := by simp [hm]
  simp only [roundsAfter, List.take_add_one, key, Option.toList_some, List.foldl_append, List.foldl_cons, List.foldl_nil]

theorem enc_eq (k : KeySchedule) (b : Block) : enc k b = finalStep k.p[16] k.p[17] (roundsAfter k 16 b) := rfl

/-- A sequence that follows the recurrence of R93 is the sequence of pairs that the rounds go through. -/
theorem eq_roundsAfter {k : KeySchedule} {x : Nat → Block}
    (next : ∀ r : Fin 16, x (r + 1) = feistelRound k.s (x r) k.p[r.val]) {m : Nat} (hm : m ≤ 16) : x m = roundsAfter k m (x 0) := by
  induction m with
  | zero => rfl
  | succ m ih => rw [roundsAfter_succ k (by omega), ← ih (by omega)]; exact next ⟨m, hm⟩

/-- Settles O7. -/
theorem encryptRecurrence : Obligations.EncryptRecurrence := by
  unfold Obligations.EncryptRecurrence
  intro k x next
  rw [enc_eq, ← eq_roundsAfter next le_rfl]
  rfl

/-! ### Decryption is encryption under the reversed table -/

/-- The schedule with its Round-Key Table in reverse order (R94). -/
def reverseTable (k : KeySchedule) : KeySchedule where
  p := k.p.reverse
  s := k.s

theorem reverseTable_reverseTable (k : KeySchedule) : reverseTable (reverseTable k) = k :=
  KeySchedule.eq_of_tables (Vector.reverse_reverse k.p) rfl

theorem dec_eq_enc_reverseTable (k : KeySchedule) (b : Block) : dec k b = enc (reverseTable k) b := by
  have keys : (k.p.toList.drop 2).reverse = k.p.reverse.toList.take 16 := by
    rw [Vector.toList_reverse, List.take_reverse, Vector.length_toList]
  simp only [dec, enc, keys, reverseTable, Vector.getElem_reverse]

/-- A table that holds `P[17-m]` at every position `m` is the reversed table. -/
theorem eq_reverseTable {k q : KeySchedule} (hp : ∀ m : Fin 18, q.p[m] = k.p[17 - m.val]) (hs : q.s = k.s) : q = reverseTable k :=
  KeySchedule.eq_of_tables
    (Vector.ext fun m hm => (hp ⟨m, hm⟩).trans (by simp only [reverseTable, Vector.getElem_reverse])) hs

/-- Settles O8. -/
theorem decryptReadsTableBackwards : Obligations.DecryptReadsTableBackwards := by
  unfold Obligations.DecryptReadsTableBackwards
  intro k q b hp hs
  rw [dec_eq_enc_reverseTable, eq_reverseTable hp hs]

/-! ### The round trip -/

/-- One round of decryption peels the last round off an encryption: what is left is an encryption of one round less. -/
theorem feistelRound_finalStep (t : Vector (Vector Word 256) 4) (b : Block) (k kr kl : Word) :
    feistelRound t (finalStep kr kl (feistelRound t b k)) kl = finalStep k kr b := by
  have left : b.l ^^^ k ^^^ kl ^^^ kl = b.l ^^^ k := by rw [BitVec.xor_assoc, BitVec.xor_self, BitVec.xor_zero]
  have right (f : Word) : b.r ^^^ f ^^^ kr ^^^ f = b.r ^^^ kr := by
    rw [BitVec.xor_assoc, BitVec.xor_comm kr f, BitVec.xor_assoc, ← BitVec.xor_assoc f f, BitVec.xor_self, BitVec.zero_xor]
  simp only [feistelRound, finalStep, left, right]

/-- With its keys exchanged the output step undoes itself. -/
theorem finalStep_finalStep (kr kl : Word) (b : Block) : finalStep kl kr (finalStep kr kl b) = b := by
  simp only [finalStep, BitVec.xor_assoc, BitVec.xor_self, BitVec.xor_zero]

/-- The rounds of decryption down to `P[m+2]` leave of an encryption its first `m` rounds and an output step with `P[m]`, `P[m+1]`. -/
theorem foldl_drop_reverse_enc (k : KeySchedule) (b : Block) {m : Nat} (hm : m ≤ 16) :
    ((k.p.toList.drop (m + 2)).reverse).foldl (feistelRound k.s) (enc k b) =
      finalStep k.p[m] k.p[m + 1] (roundsAfter k m b) := by
  induction hm using Nat.decreasingInduction with
  | self =>
    have noKeys : k.p.toList.drop 18 = [] := List.drop_eq_nil_of_le (by rw [Vector.length_toList])
    rw [noKeys, enc_eq, List.reverse_nil, List.foldl_nil]
  | of_succ m hm ih =>
    have keys : k.p.toList.drop (m + 2) = k.p[m + 2] :: k.p.toList.drop (m + 1 + 2) := by
      rw [List.drop_eq_getElem_cons (by rw [Vector.length_toList]; omega), Vector.getElem_toList]
    rw [keys, List.reverse_cons, List.foldl_append, ih, roundsAfter_succ k (by omega), List.foldl_cons, List.foldl_nil,
      feistelRound_finalStep]

theorem dec_enc (k : KeySchedule) (b : Block) : dec k (enc k b) = b := by
  unfold dec
  rw [foldl_drop_reverse_enc k b (Nat.zero_le 16), roundsAfter_zero]
  exact finalStep_finalStep _ _ b

/-- Under the reversed table the two transforms change places. -/
theorem enc_dec (k : KeySchedule) (b : Block) : enc k (dec k b) = b := by
  have h := dec_enc (reverseTable k) b
  rwa [dec_eq_enc_reverseTable, reverseTable_reverseTable, ← dec_eq_enc_reverseTable] at h

/-- Settles O9. -/
theorem blockRoundTrip : Obligations.BlockRoundTrip :=
  fun k b => ⟨dec_enc k b, enc_dec k b⟩

/-- Settles O10: each transform is the inverse of the other. -/
theorem transformsAreBijections : Obligations.TransformsAreBijections := by
  unfold Obligations.TransformsAreBijections
  intro k
  exact ⟨Function.bijective_iff_has_inverse.2 ⟨dec k, dec_enc k, enc_dec k⟩,
    Function.bijective_iff_has_inverse.2 ⟨enc k, enc_dec k, dec_enc k⟩⟩

/-! ### ENCB and DECB -/

/-- The completion step that ENCB and DECB share, each with its own transform (R100, R101). -/
theorem exec_blockCommand {i : Instr} {f : KeySchedule → Block → Block} (h : (i = .encb ∧ f = enc) ∨ (i = .decb ∧ f = dec))
    (s : State) : exec i s = .next ((transformBlock f 0 s).finish codeOk) := by
  rcases h with ⟨rfl, rfl⟩ | ⟨rfl, rfl⟩ <;> rfl

/-- The transform of a written input block is left in `(L, R)` and stored at the same indices of OBUF (R43). -/
theorem transformBlock_output (t : KeySchedule → Block → Block) {a : Nat} {s : State} {b : Block}
    (input : Memory.HoldsBlock s.ibuf a b) :
    (transformBlock t a s).l = (t s.sched b).l ∧ (transformBlock t a s).r = (t s.sched b).r ∧
      Memory.HoldsBlock (transformBlock t a s).obuf a (t s.sched b) := by
  rw [transformBlock_l, transformBlock_r, transformBlock_obuf, loadBlock_of_holds input]
  exact ⟨rfl, rfl, storeBlock_holds _ _ _⟩

/-- Every byte of OBUF past the block keeps its value. -/
theorem lookup_transformBlock_obuf_beyond (t : KeySchedule → Block → Block) {a c : Nat} (s : State) (h : a + 8 ≤ c) :
    Memory.lookup (transformBlock t a s).obuf c = Memory.lookup s.obuf c := by
  rw [transformBlock_obuf, lookup_storeBlock, if_neg (by omega)]

/-- Settles O20. -/
theorem blockCommandsComplete : Obligations.BlockCommandsComplete := by
  unfold Obligations.BlockCommandsComplete
  intro i f command s
  have completed : Completed s ((transformBlock f 0 s).finish codeOk) := ((EcbKept.refl s).step f 0).completed
  exact ⟨_, exec_blockCommand command s, fun _ input => transformBlock_output f input,
    fun _ h => lookup_transformBlock_obuf_beyond f s (by omega), rfl, rfl, rfl, completed.busy, completed.frame⟩

/-- Settles O21: the second command loads the block that the first one stored, under the same schedule. -/
theorem blockCommandsInvert : Obligations.BlockCommandsInvert := by
  unfold Obligations.BlockCommandsInvert
  intro s u b input
  refine ⟨_, exec_blockCommand (.inl ⟨rfl, rfl⟩) s, fun sched copied => ⟨_, exec_blockCommand (.inr ⟨rfl, rfl⟩) u, ?_⟩⟩
  obtain ⟨-, -, encrypted⟩ := transformBlock_output enc input
  have loaded : Memory.HoldsBlock u.ibuf 0 (enc s.sched b) := encrypted.congr fun j hj => by rw [Nat.zero_add]; exact copied j hj
  obtain ⟨-, -, decrypted⟩ := transformBlock_output dec loaded
  rw [sched, dec_enc] at decrypted
  exact decrypted

end Sys2Proof.Machine

/-! ## The ECB driver (spec/42_ecb_driver.md)

The loop turns each block of IBUF into the same block of OBUF and takes nothing along from one block to the next. What the statements say
of single bytes is read off the blocks that hold them. -/

namespace Sys2Proof.Machine

/-! ### The completion steps -/

theorem exec_ecbe (n : Nat) (s : State) : exec (.ecbe n) s = ecbIn Config.standard enc n s := rfl

theorem exec_ecbd (n : Nat) (s : State) : exec (.ecbd n) s = ecbIn Config.standard dec n s := rfl

theorem ecbIn_next {cfg : Config} {n : Nat} (t : KeySchedule → Block → Block) (s : State) (h8 : n % 8 = 0) (hn : n ≤ cfg.bufMax) :
    ecbIn cfg t n s = .next ((ecbLoop t n s).finish codeOk) := by
  rw [ecbIn, if_neg (not_not.2 h8), if_pos hn]

theorem ecbIn_badLength {cfg : Config} {n : Nat} (t : KeySchedule → Block → Block) (s : State) (bad : n % 8 ≠ 0) :
    ecbIn cfg t n s = .next s.raiseLengthError := if_pos bad

/-- Settles O23: the length is checked before any block is touched. -/
theorem badLengthChangesNothingElse : Obligations.BadLengthChangesNothingElse :=
  fun _ s bad => ⟨ecbIn_badLength enc s bad, ecbIn_badLength dec s bad⟩

/-- The command `i` runs the ECB driver over `n` bytes with the transform `f` (R112, R113). -/
def EcbCommand (n : Nat) (i : Instr) (f : KeySchedule → Block → Block) : Prop :=
  (i = .ecbe n ∧ f = enc) ∨ (i = .ecbd n ∧ f = dec)

theorem EcbCommand.ecbe (n : Nat) : EcbCommand n (.ecbe n) enc := .inl ⟨rfl, rfl⟩

theorem EcbCommand.ecbd (n : Nat) : EcbCommand n (.ecbd n) dec := .inr ⟨rfl, rfl⟩

/-- The completion step that ECBE and ECBD share, at the default size. -/
theorem exec_ecbCommand {n : Nat} {i : Instr} {f : KeySchedule → Block → Block} (command : EcbCommand n i f) (h8 : n % 8 = 0) (hn : n ≤ 4096)
    (s : State) : exec i s = .next ((ecbLoop f n s).finish codeOk) := by
  have inside : n ≤ Config.standard.bufMax := standard_bufMax ▸ hn
  rcases command with ⟨rfl, rfl⟩ | ⟨rfl, rfl⟩
  · rw [exec_ecbe, ecbIn_next _ s h8 inside]
  · rw [exec_ecbd, ecbIn_next _ s h8 inside]

theorem exists_ecbCommand {n : Nat} {i : Instr} (command : i = .ecbe n ∨ i = .ecbd n) : ∃ f, EcbCommand n i f := by
  rcases command with rfl | rfl
  · exact ⟨enc, .ecbe n⟩
  · exact ⟨dec, .ecbd n⟩

/-- ECBE and ECBD run the driver with transforms that undo each other (R95). -/
theorem exists_inverse_ecbCommands {n : Nat} {i j : Instr} (commands : (i = .ecbe n ∧ j = .ecbd n) ∨ (i = .ecbd n ∧ j = .ecbe n)) :
    ∃ f g, EcbCommand n i f ∧ EcbCommand n j g ∧ ∀ k b, g k (f k b) = b := by
  rcases commands with ⟨rfl, rfl⟩ | ⟨rfl, rfl⟩
  · exact ⟨enc, dec, .ecbe n, .ecbd n, dec_enc⟩
  · exact ⟨dec, enc, .ecbd n, .ecbe n, enc_dec⟩

theorem ecbLoop_eight (t : KeySchedule → Block → Block) (s : State) : ecbLoop t 8 s = transformBlock t 0 s := by
  rw [show 8 = 8 * (0 + 1) from rfl, ecbLoop_blocks_succ, Nat.mul_zero, ecbLoop_zero]

/-- Settles O24: the loop over one block is the body that ENCB and DECB run. -/
theorem eightByteEcbIsOneBlock : Obligations.EightByteEcbIsOneBlock := by
  unfold Obligations.EightByteEcbIsOneBlock
  intro s
  constructor
  · rw [exec_ecbCommand (.ecbe 8) rfl (by decide) s, exec_blockCommand (.inl ⟨rfl, rfl⟩) s, ecbLoop_eight]
  · rw [exec_ecbCommand (.ecbd 8) rfl (by decide) s, exec_blockCommand (.inr ⟨rfl, rfl⟩) s, ecbLoop_eight]

/-- Settles O22. -/
theorem ecbCommandsComplete : Obligations.EcbCommandsComplete := by
  unfold Obligations.EcbCommandsComplete
  intro n i f command h8 hn s
  have kept := ecbLoop_kept_of_mod f s h8
  obtain ⟨c, rfl⟩ := Nat.dvd_of_mod_eq_zero h8
  refine ⟨_, exec_ecbCommand command h8 hn s, fun q b hq input => ecbLoop_holds f c s (by omega) input, fun b h input => ?_,
    fun h => ?_, fun a ha => ecbLoop_obuf_beyond f c s ha, kept.sched, kept.sv, rfl, rfl, kept.completed.frame⟩
  · obtain ⟨m, rfl⟩ : ∃ m, c = m + 1 := ⟨c - 1, by omega⟩
    exact ecbLoop_last f m s input
  · rw [h]
    exact ⟨rfl, rfl⟩

/-! ### Blocks and their bytes -/

/-- Where two buffers hold the same block, their bytes are the same. -/
theorem Memory.HoldsBlock.lookup_eq {m m' : Memory} {a a' : Nat} {b : Block} (hb : Memory.HoldsBlock m a b)
    (hb' : Memory.HoldsBlock m' a' b) {j : Nat} (hj : j < 8) : Memory.lookup m' (a' + j) = Memory.lookup m (a + j) :=
  (hb' j hj).trans (hb j hj).symm

/-- Two buffers that hold the same block `q` for every `q` below `c` have the same first `8c` bytes. -/
theorem Memory.lookup_eq_of_sameBlocks {m m' : Memory} {c : Nat}
    (same : ∀ q < c, ∃ b, Memory.HoldsBlock m (8 * q) b ∧ Memory.HoldsBlock m' (8 * q) b) {a : Nat} (ha : a < 8 * c) :
    Memory.lookup m' a = Memory.lookup m a := by
  obtain ⟨b, hb, hb'⟩ := same (a / 8) (by omega)
  have bytes := hb.lookup_eq hb' (Nat.mod_lt a (by decide))
  rwa [Nat.div_add_mod] at bytes

/-- A written input is a row of blocks. -/
theorem State.InputWritten.holdsBlock {s : State} {c q : Nat} (written : s.InputWritten (8 * c)) (hq : q < c) :
    ∃ b, Memory.HoldsBlock s.ibuf (8 * q) b :=
  exists_holdsBlock fun _ _ => written _ (by omega)

/-- A buffer that reads alike over the first `8c` bytes holds the same block `q`, for every `q` below `c`. -/
theorem Memory.HoldsBlock.of_prefix {m m' : Memory} {c q : Nat} {b : Block} (hb : Memory.HoldsBlock m (8 * q) b) (hq : q < c)
    (same : ∀ a < 8 * c, Memory.lookup m' a = Memory.lookup m a) : Memory.HoldsBlock m' (8 * q) b :=
  hb.congr fun _ _ => same _ (by omega)

/-! ### What the driver makes of its blocks -/

/-- Settles O25: both blocks of the output are the transform of the one block that stands at both places of the input. -/
theorem equalBlocksGiveEqualBlocks : Obligations.EqualBlocksGiveEqualBlocks := by
  unfold Obligations.EqualBlocksGiveEqualBlocks
  intro n i command h8 hn s p q written hp hq equal
  obtain ⟨f, command⟩ := exists_ecbCommand command
  obtain ⟨c, rfl⟩ := Nat.dvd_of_mod_eq_zero h8
  obtain ⟨b, atQ⟩ := written.holdsBlock (show q < c by omega)
  have atP : Memory.HoldsBlock s.ibuf (8 * p) b := atQ.congr equal
  exact ⟨_, exec_ecbCommand command h8 hn s, fun _ hj =>
    (ecbLoop_holds f c s (by omega) atQ).lookup_eq (ecbLoop_holds f c s (by omega) atP) hj⟩

/-- A loop over the copied-back output of a loop, under the same schedule and with the inverse transform, gives the first input. -/
theorem ecbLoop_ecbLoop_obuf {f g : KeySchedule → Block → Block} (inverse : ∀ k b, g k (f k b) = b) {c : Nat} {s u : State}
    (written : s.InputWritten (8 * c)) (sched : u.sched = s.sched)
    (copied : ∀ a < 8 * c, Memory.lookup u.ibuf a = Memory.lookup (ecbLoop f (8 * c) s).obuf a) {a : Nat} (ha : a < 8 * c) :
    Memory.lookup (ecbLoop g (8 * c) u).obuf a = Memory.lookup s.ibuf a := by
  refine Memory.lookup_eq_of_sameBlocks (fun q hq => ?_) ha
  obtain ⟨b, input⟩ := written.holdsBlock hq
  have there : Memory.HoldsBlock u.ibuf (8 * q) (f s.sched b) := (ecbLoop_holds f c s hq input).of_prefix hq copied
  have back := ecbLoop_holds g c u hq there
  rw [sched, inverse] at back
  exact ⟨b, input, back⟩

/-- Settles O26: block by block each transform is the inverse of the other. -/
theorem ecbCommandsInvert : Obligations.EcbCommandsInvert := by
  unfold Obligations.EcbCommandsInvert
  intro n i j commands h8 hn s u written
  obtain ⟨f, g, first, second, inverse⟩ := exists_inverse_ecbCommands commands
  obtain ⟨c, rfl⟩ := Nat.dvd_of_mod_eq_zero h8
  exact ⟨_, exec_ecbCommand first h8 hn s, fun sched copied =>
    ⟨_, exec_ecbCommand second h8 hn u, fun _ ha => ecbLoop_ecbLoop_obuf inverse written sched copied ha⟩⟩

/-- Settles O27: both runs transform the same blocks under the same schedule. -/
theorem ecbOutputIsDetermined : Obligations.EcbOutputIsDetermined := by
  unfold Obligations.EcbOutputIsDetermined
  intro n i command h8 hn s u written sched same
  obtain ⟨f, command⟩ := exists_ecbCommand command
  obtain ⟨c, rfl⟩ := Nat.dvd_of_mod_eq_zero h8
  refine ⟨_, _, exec_ecbCommand command h8 hn s, exec_ecbCommand command h8 hn u, fun _ ha =>
    Memory.lookup_eq_of_sameBlocks (fun q hq => ?_) ha⟩
  obtain ⟨b, input⟩ := written.holdsBlock hq
  have output := ecbLoop_holds f c u hq (input.of_prefix hq same)
  rw [sched] at output
  exact ⟨_, ecbLoop_holds f c s hq input, output⟩

end Sys2Proof.Machine

/-! ## Host access (spec/43_host_access.md)

What the host port answers to each access, clause by clause: the registers (R131, R132), undefined addresses (R135), the buffers (R133,
R134) and the issue of a command (R136); then the core's turn (R137), and that every run comes to its end (R182). -/

namespace Sys2Proof.Machine

/-- Settles O57: of the outcomes of a host action only a reset is outside the frame. -/
theorem hostNeverTouchesCoreState : Obligations.HostNeverTouchesCoreState :=
  fun cfg a s ha => (hostStep_effect cfg a s).hostFrame ha

/-! ### The default sizes (D7, D8) -/

@[simp] theorem standard_size_keybuf : Buffer.keybuf.size Config.standard = 72 := standard_keyMax
@[simp] theorem standard_size_ibuf : Buffer.ibuf.size Config.standard = 4096 := standard_bufMax
@[simp] theorem standard_size_obuf : Buffer.obuf.size Config.standard = 4096 := standard_bufMax

@[simp] theorem standard_inRange_derive (n : Nat) : Instr.inRange Config.standard (.derive n) = decide (n ≤ 72) := by
  rw [Instr.inRange, standard_keyMax]

@[simp] theorem standard_inRange_ecbe (n : Nat) : Instr.inRange Config.standard (.ecbe n) = decide (n ≤ 4096) := by
  rw [Instr.inRange, standard_bufMax]

@[simp] theorem standard_inRange_ecbd (n : Nat) : Instr.inRange Config.standard (.ecbd n) = decide (n ≤ 4096) := by
  rw [Instr.inRange, standard_bufMax]

/-! ### Registers and undefined addresses -/

theorem statusWord_eq (s : State) : s.statusWord = BitVec.ofNat 32 (2 * s.sv.toNat + s.busy.toNat) := by
  unfold State.statusWord
  cases s.sv <;> cases s.busy <;> rfl

theorem resultWord_eq (s : State) : s.resultWord = BitVec.ofNat 32 s.result.toNat := (BitVec.ofNat_toNat 32 s.result).symm

theorem faultWord_eq (s : State) : s.faultWord = BitVec.ofNat 32 s.faultBits.toNat := (BitVec.ofNat_toNat 32 s.faultBits).symm

/-- Settles O28: the three readable registers are their words, and a read of CMD is a fault. -/
theorem registerReads : Obligations.RegisterReads := by
  unfold Obligations.RegisterReads
  intro s rest
  rw [← statusWord_eq, ← resultWord_eq, ← faultWord_eq]
  exact ⟨step_host, step_host, step_host, step_host⟩

/-- Settles O34: `hostStep` answers a stray read by ACCESS and 0 in its width, without a look at `BUSY`. -/
theorem undefinedReads : Obligations.UndefinedReads :=
  fun _ _ => ⟨step_host, step_host⟩

/-- A dropped write sets the one fault that `BUSY` selects (R132). -/
theorem dropWrite_eq (s : State) :
    s.dropWrite = s.setFaultBits (s.faultBits ||| if s.busy then 0b00010 else 0b10000) := by
  unfold State.dropWrite
  split <;> rfl

/-- Settles O29: each of these writes is answered by `State.dropWrite`. -/
theorem readOnlyWritesDropped : Obligations.ReadOnlyWritesDropped := by
  unfold Obligations.ReadOnlyWritesDropped
  intro s rest a w width ha next
  have dropped : hostStep Config.standard a (s.setEvents rest) = (s.setEvents rest).dropWrite.setReply none := by
    rcases ha with rfl | rfl | rfl | rfl <;> rfl
  rw [step_host next, dropped, dropWrite_eq]
  rfl

/-! ### Buffer bytes -/

/-- While a command is in flight every byte write is refused, before any other check (R133). -/
theorem hostStep_byteWrite_busy (cfg : Config) {s : State} (b : Buffer) (k : Nat) (v : Byte) (busy : s.busy = true) :
    hostStep cfg (.byteWrite b k v) s = (s.raise .busyviol).setReply none :=
  if_pos busy

/-- An idle core refuses a byte write to OBUF and one past a buffer's end (R133). -/
theorem hostStep_byteWrite_refused {cfg : Config} {s : State} {b : Buffer} {k : Nat} (v : Byte) (idle : s.busy = false)
    (refused : b = .obuf ∨ b.size cfg ≤ k) : hostStep cfg (.byteWrite b k v) s = (s.raise .access).setReply none := by
  show byteWrite cfg b k v s = _
  rw [byteWrite, if_neg (by simp [idle])]
  rcases refused with hobuf | beyond
  · rw [if_pos hobuf]
  · rw [if_pos beyond, ite_self]

/-- Settles O30: the outcome of the step is that of the write, which each clause's hypotheses decide. -/
theorem byteWrites : Obligations.ByteWrites := by
  unfold Obligations.ByteWrites
  intro s rest b k v next
  refine ⟨_, step_host next, fun busy => hostStep_byteWrite_busy _ b k v busy, fun idle refused => ?refused, ?keybuf, ?ibuf⟩
  case refused =>
    refine hostStep_byteWrite_refused (s := s.setEvents rest) v idle ?_
    rcases refused with hobuf | ⟨rfl, hk⟩ | ⟨rfl, hk⟩
    · exact .inl hobuf
    · exact .inr (by simpa using hk)
    · exact .inr (by simpa using hk)
  case keybuf =>
    rintro idle rfl hk
    rw [hostStep_byteWrite_idle (s := s.setEvents rest) (b := .keybuf) v idle nofun (by simpa using hk)]
    exact ⟨rfl, fun a => Memory.lookup_write s.keybuf k a v⟩
  case ibuf =>
    rintro idle rfl hk
    rw [hostStep_byteWrite_idle (s := s.setEvents rest) (b := .ibuf) v idle nofun (by simpa using hk)]
    exact ⟨rfl, fun a => Memory.lookup_write s.ibuf k a v⟩

/-- A read that no rule fixes returns the next draw (R31, R134). -/
theorem hostStep_byteRead_any {cfg : Config} {s : State} {b : Buffer} {k : Nat} (inside : k < b.size cfg)
    (unfixed : s.busy = true ∨ Memory.lookup (s.buffer b) k = none) :
    hostStep cfg (.byteRead b k) s = (s.setReply (some (.byte (s.freeByte 0)))).advance 1 := by
  show byteRead cfg b k s = _
  rw [byteRead, if_neg (by omega)]
  rcases unfixed with busy | unwritten
  · rw [if_pos busy]
  · rw [unwritten, ite_self]

/-- Settles O31: the size check comes first, and inside the buffer the byte is fixed only where it is written and the core idle. -/
theorem byteReads : Obligations.ByteReads := by
  unfold Obligations.ByteReads
  intro s rest b k next
  refine ⟨_, step_host next, fun beyond => ?beyond, fun inside => ?inside⟩
  case beyond =>
    refine hostStep_byteRead_beyond (s.setEvents rest) ?_
    rcases beyond with ⟨rfl, hk⟩ | ⟨rfl, hk⟩ | ⟨rfl, hk⟩ <;> simpa using hk
  case inside =>
    have inside : k < b.size Config.standard := by
      rcases inside with ⟨rfl, hk⟩ | ⟨rfl, hk⟩ | ⟨rfl, hk⟩ <;> simpa using hk
    refine ⟨fun v idle written => ?_, fun unfixed => ⟨s.freeByte 0, ?_⟩⟩
    · exact hostStep_byteRead_idle (s := s.setEvents rest) idle inside (by cases b <;> exact written)
    · rw [hostStep_byteRead_any (s := s.setEvents rest) inside (by cases b <;> exact unfixed)]
      rfl

/-! ### The issue of a command -/

section
variable {cfg : Config} {s : State} {w : Word} {i : Instr}

/-- Step 1 of the issue check (R136). -/
theorem issue_busy (cfg : Config) (w : Word) (busy : s.busy = true) : issue cfg w s = s.raise .busyviol :=
  if_pos busy

/-- Step 2 of the issue check (R136). -/
theorem issue_illegal (cfg : Config) (idle : s.busy = false) {e : DecodeError} (word : decode w = .error e) :
    issue cfg w s = s.raise .illegal := by
  simp only [issue, idle, word, Bool.false_eq_true, if_false]

/-- Step 3 of the issue check (R136). -/
theorem issue_outOfRange (idle : s.busy = false) (word : decode w = .ok i) (outOfRange : Instr.inRange cfg i = false) :
    issue cfg w s = s.raise .range := by
  simp only [issue, idle, word, refusalOf, outOfRange, Bool.false_eq_true, if_false, if_true]

/-- Step 4 of the issue check (R136). -/
theorem issue_noSchedule (idle : s.busy = false) (word : decode w = .ok i) (inRange : Instr.inRange cfg i = true)
    (needs : Instr.needsSchedule i = true) (invalid : s.sv = false) : issue cfg w s = s.raise .nosched := by
  simp [issue, idle, word, refusalOf, inRange, needs, invalid]

/-- Step 5 of the issue check (R136). -/
theorem issue_accept (idle : s.busy = false) (word : decode w = .ok i) (inRange : Instr.inRange cfg i = true)
    (sched : Instr.needsSchedule i = true → s.sv = true) : issue cfg w s = accept i s := by
  have passes : refusalOf cfg i s = none := by
    simpa [refusalOf, inRange] using sched
  simp only [issue, idle, word, passes, Bool.false_eq_true, if_false]

/-- The acceptance of a command that needs a schedule leaves `SV` alone (R136). -/
theorem accept_eq_of_needsSchedule (s : State) (needs : Instr.needsSchedule i = true) :
    accept i s = (s.setCur i).setBusy true := by
  rw [accept, if_pos needs]
  rfl

end

/-- A command but DERIVE whose count fits the default sizes passes step 3 of the issue check and meets step 4. -/
theorem inRange_and_needsSchedule {i : Instr} {n : Nat} (h : i = .encb ∨ i = .decb ∨ ((i = .ecbe n ∨ i = .ecbd n) ∧ n ≤ 4096)) :
    Instr.inRange Config.standard i = true ∧ Instr.needsSchedule i = true := by
  rcases h with rfl | rfl | ⟨rfl | rfl, hn⟩
  · exact ⟨rfl, rfl⟩
  · exact ⟨rfl, rfl⟩
  · exact ⟨by simpa using hn, rfl⟩
  · exact ⟨by simpa using hn, rfl⟩

/-- A write to CMD at the head of the order is the next step, as the issue of its word (R136). -/
theorem step_issue {s t : State} {w : Word} {rest : List Event} (next : s.events = .host (.regWrite .cmd w) :: rest)
    (h : issue Config.standard w (s.setEvents rest) = t) : step s = .next (t.setReply none) :=
  h ▸ step_host next

/-- Settles O35: the clauses are the five steps of the issue check, step 5 once for DERIVE and once for the rest. -/
theorem commandIssue : Obligations.CommandIssue := by
  unfold Obligations.CommandIssue
  intro s rest w next
  refine ⟨fun busy => step_issue next (issue_busy _ w busy), fun e idle word => step_issue next (issue_illegal _ idle word),
    fun n idle h => ?range, fun i n idle invalid word h => ?nosched, fun n idle word hn => ?derive,
    fun i n idle valid word h => ?others⟩
  case range =>
    obtain ⟨i, word, outOfRange⟩ : ∃ i, decode w = .ok i ∧ Instr.inRange Config.standard i = false := by
      rcases h with ⟨word, hn⟩ | ⟨word | word, hn⟩ <;> exact ⟨_, word, by simpa using hn⟩
    exact step_issue next (issue_outOfRange idle word outOfRange)
  case nosched =>
    obtain ⟨inRange, needs⟩ := inRange_and_needsSchedule h
    exact step_issue next (issue_noSchedule idle word inRange needs invalid)
  case derive =>
    exact step_issue next (issue_accept idle word (by simpa using hn) nofun)
  case others =>
    obtain ⟨inRange, needs⟩ := inRange_and_needsSchedule h
    rw [step_issue next (issue_accept idle word inRange fun _ => valid), accept_eq_of_needsSchedule _ needs]
    rfl

/-! ### The core's turn -/

/-- The core's turn at the head of the order is the next step. -/
theorem step_complete {s : State} {rest : List Event} (next : s.events = .complete :: rest) :
    step s = complete exec (s.setEvents rest) := by
  unfold step advanceMachine
  rw [next]
  rfl

/-- At the end of the order the next step is the core's (R182). -/
theorem step_of_events_nil {s : State} (last : s.events = []) : step s = complete exec s := by
  unfold step advanceMachine
  rw [last]

theorem complete_busy (run : Instr → State → Host.Outcome State Fault Refusal) {s : State} (busy : s.busy = true) :
    complete run s = run s.cur s :=
  if_pos busy

theorem complete_idle (run : Instr → State → Host.Outcome State Fault Refusal) {s : State} (idle : s.busy = false) :
    complete run s = .next s :=
  if_neg (by simp [idle])

/-- Settles O36: `complete` asks for `BUSY` alone. -/
theorem completeRunsCommandInFlight : Obligations.CompleteRunsCommandInFlight :=
  fun _ _ next => ⟨fun busy => (step_complete next).trans (complete_busy exec busy),
    fun idle => (step_complete next).trans (complete_idle exec idle)⟩

/-- A command put in flight is run by the next step (R137, log entry 8). -/
theorem step_putInFlight (i : Instr) (s : State) :
    step (putInFlight i s) = exec i { s with cur := i, busy := true, sv := Instr.needsSchedule i } := by
  cases hs : s.events with
  | nil =>
    have last : (putInFlight i s).events = [] := by simp [putInFlight, hs]
    rw [step_of_events_nil last, complete_busy exec rfl, putInFlight, hs]
    rfl
  | cons e rest =>
    have next : (putInFlight i s).events = .complete :: e :: rest := by simp [putInFlight, hs]
    rw [step_complete next, complete_busy exec rfl, putInFlight, hs]
    rfl

/-- Settles O37: the issue check lets the command in, and the core's turn runs it. -/
theorem stepRunsDecodedCommand : Obligations.StepRunsDecodedCommand := by
  unfold Obligations.StepRunsDecodedCommand
  constructor
  · intro s rest w i word inRange idle valid next
    refine ⟨_, step_issue next (issue_accept idle word inRange fun _ => valid), rfl, rfl, ?_⟩
    exact (step_complete rfl).trans (complete_busy exec rfl)
  · intro s w i word hw inRange
    have placed : s.withFetchWord 32 w = putInFlight i s := by
      rw [State.withFetchWord, placeWord, Nat.mod_eq_of_lt hw, word]
      exact if_pos inRange
    rw [placed, step_putInFlight]

/-! ### Every run comes to an idle core -/

/-- Settles O44: a command in flight is in range under the invariant, and nothing else can stop a step. -/
theorem stepNeverStops : Obligations.StepNeverStops := by
  unfold Obligations.StepNeverStops
  intro s hinv
  rw [step_eq_stepIn]
  exact stepIn_next hinv.inRange

/-- The last step of a run leaves the core idle: with no event left it is the core's turn (R182). -/
theorem step_idle_of_events_nil {s t : State} (last : s.events = []) (hstep : step s = .next t) : t.busy = false := by
  rw [step_of_events_nil last] at hstep
  cases hb : s.busy with
  | true =>
    rw [complete_busy exec hb] at hstep
    exact (exec_effect hstep).completed.busy
  | false =>
    rw [complete_idle exec hb] at hstep
    cases hstep
    exact hb

/-- A run takes the events of the order one by one, under the invariant, and then the core's turn. -/
theorem core_run_reaches_idle {es : List Event} {s : State} (hinv : State.Inv Config.standard s) (hes : s.events = es) :
    ∃ t : State, core.run (es.length + 1) s = .next t ∧ t.events = [] ∧ t.busy = false := by
  induction es generalizing s with
  | nil =>
    obtain ⟨t, ht⟩ := stepNeverStops s hinv
    exact ⟨t, core_run_succ ht, by rw [step_events ht, hes]; rfl, step_idle_of_events_nil hes ht⟩
  | cons e rest ih =>
    obtain ⟨t, ht⟩ := stepNeverStops s hinv
    rw [List.length_cons, core_run_succ ht]
    exact ih (stepKeepsInvariant s t hinv ht) (by rw [step_events ht, hes]; rfl)

/-- Settles O45, by induction on the order of events. -/
theorem everyRunReachesIdle : Obligations.EveryRunReachesIdle :=
  fun _ hinv => core_run_reaches_idle hinv rfl

end Sys2Proof.Machine

/-! ## Protocol faults (spec/60_exceptions.md)

A step that sets a FAULT bit is a host action that met a protocol fault (R152): one bit is set, and the action is dropped (R153, R156). -/

namespace Sys2Proof.Machine

/-! ### The bit of a protocol fault -/

/-- The number of the FAULT bit that a protocol fault sets (R30). -/
def FaultBit.number : FaultBit → Nat
  | .illegal => 0
  | .busyviol => 1
  | .nosched => 2
  | .range => 3
  | .access => 4

theorem FaultBit.number_lt (b : FaultBit) : b.number < 5 := by cases b <;> decide

theorem FaultBit.mask_eq_twoPow (b : FaultBit) : b.mask = BitVec.twoPow 5 b.number := by cases b <;> decide

theorem FaultBit.getLsbD_mask (b : FaultBit) (j : Nat) : b.mask.getLsbD j = decide (b.number = j) := by
  simp [b.mask_eq_twoPow, b.number_lt]

/-- Raising a fault sets no bit but its own. -/
theorem State.number_eq_of_raise {s : State} {b : FaultBit} {j : Nat} (clear : s.faultBits.getLsbD j = false)
    (added : (s.raise b).faultBits.getLsbD j = true) : b.number = j := by
  rw [State.raise_faultBits, BitVec.getLsbD_or, clear, Bool.false_or, b.getLsbD_mask] at added
  exact of_decide_eq_true added

/-! ### Which steps set a bit -/

@[simp] theorem State.applyReset_faultBits (s : State) : s.applyReset.faultBits = 0 := rfl
@[simp] theorem State.applyPowerOn_faultBits (s : State) : s.applyPowerOn.faultBits = 0 := rfl

theorem faultBits_ne_of_added {s t : State} {j : Nat} (clear : s.faultBits.getLsbD j = false)
    (added : t.faultBits.getLsbD j = true) : t.faultBits ≠ s.faultBits := fun same => by
  rw [same, clear] at added
  cases added

/-- A host action sets a bit of FAULT by a protocol fault only: it sets that bit, returns, and does nothing else (R152). -/
theorem HostEffect.eq_raise_of_added {cfg : Config} {s t : State} {a : HostAction} {j : Nat} (eff : HostEffect cfg s a t)
    (clear : s.faultBits.getLsbD j = false) (added : t.faultBits.getLsbD j = true) :
    ∃ b v, t = (s.raise b).setReply v := by
  have changed := faultBits_ne_of_added clear added
  cases eff with
  | fault a b v => exact ⟨b, v, rfl⟩
  | read a v k => exact absurd rfl changed
  | store b k v => exact absurd (by cases b <;> rfl) changed
  | accepted w i => exact absurd rfl changed
  | reset => simp at added

/-- A step that sets a bit of FAULT is a host action that met a protocol fault (R152). -/
theorem StepEffect.eq_raise_of_added {cfg : Config} {s t : State} {j : Nat} (eff : StepEffect cfg s t)
    (clear : s.faultBits.getLsbD j = false) (added : t.faultBits.getLsbD j = true) :
    ∃ b rest v, t = ((s.setEvents rest).raise b).setReply v := by
  have changed := faultBits_ne_of_added clear added
  cases eff with
  | idle rest => exact absurd rfl changed
  | command rest turn busy eff => exact absurd eff.completed.faultBits changed
  | host e a rest next names eff =>
    obtain ⟨b, v, ht⟩ := eff.eq_raise_of_added clear added
    exact ⟨b, rest, v, ht⟩
  | powerOn rest => simp at added

/-- Settles O52: both bits are the bit of the one fault that the step raised. -/
theorem atMostOneFaultPerStep : Obligations.AtMostOneFaultPerStep := by
  unfold Obligations.AtMostOneFaultPerStep
  intro s t i j hstep clearI addedI clearJ addedJ
  obtain ⟨b, rest, v, rfl⟩ := (step_effect hstep).eq_raise_of_added clearI addedI
  calc
    i = b.number := (State.number_eq_of_raise clearI addedI).symm
    _ = j := State.number_eq_of_raise clearJ addedJ

/-- Settles O53: raising a fault writes FAULT, and the step the order of events and the reply. -/
theorem faultingActionIsDropped : Obligations.FaultingActionIsDropped := by
  unfold Obligations.FaultingActionIsDropped
  intro s t j hstep clear added
  obtain ⟨b, rest, v, rfl⟩ := (step_effect hstep).eq_raise_of_added clear added
  rfl

end Sys2Proof.Machine
